-- ==== Sys2Proof/Word.lean ====
section
/-! DEFINITION. The words of the Rowzan 340: bytes on its serial lines and device time, with their plainest arithmetic
(00_scope.md 7.2 to 7.4). -/

namespace Sys2Proof

/-- One byte of a serial line (00_scope.md 7.5). -/
abbrev Byte := BitVec 8

/-- Device time and time stamps: a 32-bit count of milliseconds, differences taken modulo 2^32 (00_scope.md 7.2). -/
abbrev Time := BitVec 32

/-- The milliseconds from `earlier` to `later`, modulo 2^32 (00_scope.md 7.2). -/
def Time.since (later earlier : Time) : Nat := (later - earlier).toNat

/-- The time `ms` milliseconds after `t` (00_scope.md 7.2). -/
def Time.plus (t : Time) (ms : Nat) : Time := t + BitVec.ofNat 32 ms

/-- The moment `deadline` has been reached at `now`: the difference, taken modulo 2^32, is not negative as a
signed number (00_scope.md 7.2; log 3). -/
def Time.reached (now deadline : Time) : Bool := decide (Time.since now deadline < 2147483648)

/-- The milliseconds still to run from `now` to `deadline`; 0 once it has been reached. -/
def Time.remaining (now deadline : Time) : Nat :=
  if Time.reached now deadline then 0 else Time.since deadline now

end Sys2Proof
end

