-- ==== Sys2Proof/Config.lean ====
section
/-! DEFINITION. What is fixed for every Rowzan 340 (capacities and parameter ranges, 00_scope.md 7.6 and 7.7), and the
free values: the orders the manual leaves open. -/

namespace Sys2Proof

/-- FREE VALUE (log 5). Where two events fall due at one moment, or one event reaches two blocks, and the manual says that
whichever is taken first decides without saying which is, the choice is the next value of this sequence. It has no body: no
proof can see it. -/
opaque Config.choice : Nat → Nat

/-- FREE VALUE (log 30). The element a DIR_DENY carries when it answers a DIR_ASK that names no boundary element of this part:
R132 has the sender write the remote element id of its own boundary element, and there is none. It has no body: no proof can see
it. -/
opaque Config.deniedElement : Nat → BitVec 16

/-- FREE VALUE (log 16). The reason of the REFUSE that answers an OFFER in a part that stores no ENTRY route: R32 has such a part refuse
every offer, and R138's four reasons name none for it. It has no body: no proof can see it. -/
opaque Config.refusalWithoutEntryRoutes : BitVec 8

/-- Host request queue: 8 frames (00_scope.md 7.6, R166). -/
def Config.requestPlaces : Nat := 8
/-- The reply list holds up to 24 replies (R168). -/
def Config.replyPlaces : Nat := 24
/-- No request is handed on while this many replies wait (R167). -/
def Config.replyGate : Nat := 16
/-- The transmit queue of a port holds at most 64 telegrams (R120). -/
def Config.transmitPlaces : Nat := 64
/-- The fault list has 32 places (R151). -/
def Config.faultPlaces : Nat := 32
/-- Route slots (R35). -/
def Config.slotCount : Nat := 32
/-- Boundary links (00_scope.md 7.6). -/
def Config.linkCount : Nat := 4
/-- Power groups (00_scope.md 7.6). -/
def Config.groupCount : Nat := 8
/-- Remote asks outstanding or held per link, and given claims per link (R68, R79). -/
def Config.askPlaces : Nat := 16
/-- The greatest flank claim count of an element (R64). -/
def Config.claimLimit : Nat := 48
/-- Every counter stops here (00_scope.md 7.3). -/
def Config.counterTop : Nat := 65535
/-- The emergency timer: 300,000 ms (R115). -/
def Config.emergencyMs : Nat := 300000
/-- How many rounds the cascade of one event may take before the rest waits for the next event (log 6). It is far
above what any state needs. -/
def Config.settleRounds : Nat := 4096

/-- A counter's next value: 16 bits, stopping at 65535 (00_scope.md 7.3). -/
def bump (n : Nat) : Nat := if n < Config.counterTop then n + 1 else Config.counterTop

/-- A counter raised by `k`, stopping at 65535 (00_scope.md 7.3). -/
def bumpBy (n k : Nat) : Nat := if n + k ≤ Config.counterTop then n + k else Config.counterTop

/-- The ten global parameters, in code order (R172, 11.5). -/
inductive Param where
  | throwLimit | provingLimit | supplyLoss | pendingLimit | margin | staleness | silence1 | silence2 | auxWindow | majorLimit
  deriving DecidableEq, Repr

/-- The ten parameters in code order, THROW_LIMIT 1 to MAJOR_LIMIT 10 (11.5). -/
def Param.all : List Param :=
  [.throwLimit, .provingLimit, .supplyLoss, .pendingLimit, .margin, .staleness, .silence1, .silence2, .auxWindow, .majorLimit]

/-- A parameter's code (11.5). -/
def Param.code : Param → Nat
  | .throwLimit => 1
  | .provingLimit => 2
  | .supplyLoss => 3
  | .pendingLimit => 4
  | .margin => 5
  | .staleness => 6
  | .silence1 => 7
  | .silence2 => 8
  | .auxWindow => 9
  | .majorLimit => 10

/-- The parameter with a code (11.5). -/
def Param.ofCode (c : Nat) : Option Param := Param.all.find? (fun p => p.code == c)

/-- The least value of a parameter's own range (R172). -/
def Param.least : Param → Nat
  | .throwLimit => 1000
  | .provingLimit => 500
  | .supplyLoss => 1000
  | .pendingLimit => 10
  | .margin => 0
  | .staleness => 10000
  | .silence1 => 200
  | .silence2 => 400
  | .auxWindow => 2000
  | .majorLimit => 1

/-- The greatest value of a parameter's own range (R172). -/
def Param.greatest : Param → Nat
  | .throwLimit => 30000
  | .provingLimit => 10000
  | .supplyLoss => 60000
  | .pendingLimit => 600
  | .margin => 50
  | .staleness => 600000
  | .silence1 => 5000
  | .silence2 => 60000
  | .auxWindow => 30000
  | .majorLimit => 8

/-- The global parameters in force (R171, R172). -/
structure Params where
  throwLimit   : Nat := 8000
  provingLimit : Nat := 3000
  supplyLoss   : Nat := 20000
  pendingLimit : Nat := 200
  margin       : Nat := 10
  staleness    : Nat := 120000
  silence1     : Nat := 1000
  silence2     : Nat := 5000
  auxWindow    : Nat := 10000
  majorLimit   : Nat := 3
  deriving DecidableEq, Repr

/-- One parameter's value. -/
def Params.get (p : Params) : Param → Nat
  | .throwLimit => p.throwLimit
  | .provingLimit => p.provingLimit
  | .supplyLoss => p.supplyLoss
  | .pendingLimit => p.pendingLimit
  | .margin => p.margin
  | .staleness => p.staleness
  | .silence1 => p.silence1
  | .silence2 => p.silence2
  | .auxWindow => p.auxWindow
  | .majorLimit => p.majorLimit

/-- The parameters with one value replaced. -/
def Params.put (p : Params) : Param → Nat → Params
  | .throwLimit, v => { p with throwLimit := v }
  | .provingLimit, v => { p with provingLimit := v }
  | .supplyLoss, v => { p with supplyLoss := v }
  | .pendingLimit, v => { p with pendingLimit := v }
  | .margin, v => { p with margin := v }
  | .staleness, v => { p with staleness := v }
  | .silence1, v => { p with silence1 := v }
  | .silence2, v => { p with silence2 := v }
  | .auxWindow, v => { p with auxWindow := v }
  | .majorLimit, v => { p with majorLimit := v }

end Sys2Proof
end

