-- ==== Sys2Proof/Syntax.lean ====
section
/-! DEFINITION. The commands of the Rowzan 340: one constructor for each row of spec/opcode_table.json, with what the
command carries. Requests carry the tag, the authority and the body bytes of their frame (R179). Telegrams carry their
link, the sequence of their envelope and their fields (R181). Timer expiries name the timer's owner. -/

namespace Sys2Proof

/-- The authority claimed in a request header (R159, R178). -/
inductive Authority where
  | routine | auxiliary
  deriving DecidableEq, Repr

/-- Why a host frame or a telegram ended bad (R165, R122). -/
inductive ReceiveError where
  /-- The CRC of a whole frame does not match. -/
  | crc
  /-- A length outside its range, or a pause between two bytes. -/
  | length
  /-- A byte error while gathering. -/
  | byte
  /-- A byte error while hunting: counted, and no frame or telegram ends by it. -/
  | hunting
  deriving DecidableEq, Repr

/-- A good host frame, as it waits in the request queue (R166, R179). `authority` is the byte as received, absent in a
frame of 6 bytes. -/
structure HostFrame where
  kind      : Byte
  tag       : Byte
  authority : Option Byte
  body      : List Byte
  deriving DecidableEq, Repr

/-- A request as its owning block takes it: the kind is the command's own (R167, R179). -/
structure Request where
  tag       : Byte
  authority : Authority
  body      : List Byte
  deriving DecidableEq, Repr

/-- The header of a CONFIRM_AUX whose kind is the command's own (R161). -/
structure Header where
  tag       : Byte
  authority : Authority
  deriving DecidableEq, Repr

/-- One boundary element entry of a STATE telegram (R148, 11.4). The direction claim is the byte as received. -/
structure StateEntry where
  element         : Nat
  claim           : Nat
  offerPresent    : Bool
  acceptanceGiven : Bool
  occupiedBeyond  : Bool
  deriving DecidableEq, Repr

/-- The body of a STATE telegram (R148, 11.4). -/
structure StateBody where
  mode    : Nat
  asks    : List Nat
  given   : List Nat
  entries : List StateEntry
  deriving DecidableEq, Repr

/-- The commands the block takes: host frames and requests, telegrams, and events of its lines and timers. -/
inductive Instr where
  | coldReset
  | hostFrameReceived (bytes : List Byte)
  | badFrame (e : ReceiveError)
  | unknownKind (f : HostFrame)
  | transmitLineFree
  | ping (rq : Request)
  | query (rq : Request)
  | configBegin (rq : Request)
  | elementDef (rq : Request)
  | routeDef (rq : Request)
  | linkDef (rq : Request)
  | groupDef (rq : Request)
  | globalParams (rq : Request)
  | configEnd (rq : Request)
  | fieldReport (rq : Request)
  | supplyReport (rq : Request)
  | withdrawalSupervisionExpiry (signal : Nat)
  | setRoute (rq : Request)
  | commitGroup (rq : Request)
  | cancelGroup (rq : Request)
  | cancelRoute (rq : Request)
  | pendingTimerExpiry (slot : Nat)
  | provingTimerExpiry (slot : Nat)
  | overlapTimerExpiry (slot : Nat)
  | approachTimerExpiry (slot : Nat)
  | emergencyTimerExpiry (slot : Nat)
  | flankAskAnswerExpiry (slot requirement : Nat)
  | pointThrow (rq : Request)
  | throwTimerExpiry (point : Nat)
  | supplyLossTimerExpiry (group : Nat)
  | ackFault (rq : Request)
  | hostSilent
  | hostSilentLong
  | prepareAux (rq : Request)
  | auxWindowExpiry
  | restoreSection (h : Header) (element : Nat)
  | emergencyRelease (h : Header) (slot : Nat)
  | releaseGivenFlank (h : Header) (link : Nat)
  | resume (h : Header)
  | restart (h : Header)
  | askDirection (rq : Request)
  | refuseOffer (rq : Request)
  | linkReset (rq : Request)
  | clearCounters (rq : Request)
  | badTelegram (link : Nat) (e : ReceiveError)
  | unknownKindTelegram (link : Nat) (seq : Byte)
  | telegramTransmitted (link : Nat)
  | sendTimerExpiry (link : Nat)
  | missWatchExpiry (link : Nat)
  | losTimerExpiry (link : Nat)
  | probe (link : Nat) (seq : Byte) (number : Byte) (pattern : List Byte)
  | state (link : Nat) (seq : Byte) (body : StateBody)
  | offer (link : Nat) (seq : Byte) (element reference cls : Nat)
  | accept (link : Nat) (seq : Byte) (reference : Nat)
  | refuse (link : Nat) (seq : Byte) (reference reason : Nat)
  | offerAnswerExpiry (element : Nat)
  | withdraw (link : Nat) (seq : Byte) (reference : Nat)
  | released (link : Nat) (seq : Byte) (reference : Nat)
  | occupiedBeyond (link : Nat) (seq : Byte) (element : Nat)
  | clearedBehind (link : Nat) (seq : Byte) (element : Nat)
  | flankAsk (link : Nat) (seq : Byte) (reference element required : Nat)
  | flankGiven (link : Nat) (seq : Byte) (reference : Nat)
  | flankRefused (link : Nat) (seq : Byte) (reference : Nat)
  | flankWithdrawn (link : Nat) (seq : Byte) (reference : Nat)
  | flankRelease (link : Nat) (seq : Byte) (reference : Nat)
  | dirAsk (link : Nat) (seq : Byte) (element : Nat)
  | dirGive (link : Nat) (seq : Byte) (element : Nat)
  | dirDeny (link : Nat) (seq : Byte) (element : Nat)
  | directionTimerExpiry (element : Nat)
  | confirmAux (rq : Request)
  deriving DecidableEq, Repr

end Sys2Proof
end

