-- ==== Sys2Proof/Decode.lean ====
section
/-! DEFINITION. From bytes to commands: the checks of a host frame (R165, R179), the request kinds, and which command a
request frame is handed on as (R167); with the encoder of host frames and the two CRCs of 00_scope.md 7.4. The opcode table gives
no row any bits, so `decodeTableWord` reads no command from a word. -/

namespace Sys2Proof

/-- The high byte of a 16-bit number. -/
def hiByte (n : Nat) : Byte := BitVec.ofNat 8 (n / 256)
/-- The low byte of a number. -/
def loByte (n : Nat) : Byte := BitVec.ofNat 8 n

/-- A field of one byte (R178). -/
def bytes1 (n : Nat) : List Byte := [loByte n]
/-- A field of two bytes, most significant first (00_scope.md 7.4, R178). -/
def bytes2 (n : Nat) : List Byte := [hiByte n, loByte n]
/-- A field of four bytes, most significant first (00_scope.md 7.4, R178). -/
def bytes4 (n : Nat) : List Byte := [BitVec.ofNat 8 (n / 16777216), BitVec.ofNat 8 (n / 65536), hiByte n, loByte n]

/-- A two-byte number, most significant first. -/
def num2 (a b : Byte) : Nat := a.toNat * 256 + b.toNat
/-- A four-byte number, most significant first. -/
def num4 (a b c d : Byte) : Nat := num2 a b * 65536 + num2 c d

/-- One bit step of the 16-bit CRC, most significant bit first, generator x^16 + x^12 + x^5 + 1. -/
def crc16Bit (r : BitVec 16) : BitVec 16 := if r.msb then (r <<< 1) ^^^ 0x1021 else r <<< 1

/-- One byte of the 16-bit CRC; the byte enters most significant bit first (log 7). -/
def crc16Byte (r : BitVec 16) (b : Byte) : BitVec 16 :=
  crc16Bit (crc16Bit (crc16Bit (crc16Bit (crc16Bit (crc16Bit (crc16Bit (crc16Bit (r ^^^ (b.setWidth 16 <<< 8)))))))))

/-- The CRC of frames and telegrams: it starts from all ones and is not inverted (00_scope.md 7.4). -/
def crc16 (l : List Byte) : BitVec 16 := l.foldl crc16Byte 0xFFFF

/-- One bit step of the 32-bit CRC, generator 0x04C11DB7. -/
def crc32Bit (r : BitVec 32) : BitVec 32 := if r.msb then (r <<< 1) ^^^ 0x04C11DB7 else r <<< 1

/-- One byte of the 32-bit CRC; the byte enters most significant bit first (log 7). -/
def crc32Byte (r : BitVec 32) (b : Byte) : BitVec 32 :=
  crc32Bit (crc32Bit (crc32Bit (crc32Bit (crc32Bit (crc32Bit (crc32Bit (crc32Bit (r ^^^ (b.setWidth 32 <<< 24)))))))))

/-- The configuration checksum's CRC: from all ones, inverted at the end (00_scope.md 7.4, R173). -/
def crc32 (l : List Byte) : BitVec 32 := ~~~ (l.foldl crc32Byte 0xFFFFFFFF)

/-- The two bytes of a CRC-16 as sent, most significant first. -/
def crc16Bytes (l : List Byte) : List Byte := bytes2 (crc16 l).toNat

/-- The delimiter of a host frame (R179). -/
def frameDelimiter : Byte := 0x5A

/-- The length a length byte declares: 0 stands for 256 (R179). -/
def declaredLength (b : Byte) : Nat := if b.toNat = 0 then 256 else b.toNat

/-- What the receiver makes of a run of bytes that its hunting let through (R165). -/
inductive FrameVerdict where
  /-- A good frame. -/
  | good (f : HostFrame)
  /-- A bad frame, with the counter it raises. -/
  | bad (e : ReceiveError)
  /-- No frame: the bytes do not open with the delimiter, and hunting discards them. -/
  | noFrame
  deriving DecidableEq, Repr

/-- The frame inside an envelope: kind, tag, and, in a frame above 6 bytes, the authority and the body (R179). -/
def frameOf (inner : List Byte) : Option HostFrame :=
  match inner with
  | kind :: tag :: [] => some ⟨kind, tag, none, []⟩
  | kind :: tag :: authority :: body => some ⟨kind, tag, some authority, body⟩
  | _ => none

/-- R165: the length is judged first, then, for a whole frame, the CRC over every byte after the delimiter up to the CRC. A
run of bytes that is not the declared length was ended by a pause, which is a length error. -/
def judgeFrame (bytes : List Byte) : FrameVerdict :=
  match bytes with
  | [] => .noFrame
  | d :: rest =>
    if d ≠ frameDelimiter then .noFrame
    else match rest with
      | [] => .bad .length
      | len :: inner =>
        if declaredLength len < 6 then .bad .length
        else if inner.length + 2 ≠ declaredLength len then .bad .length
        else if crc16Bytes (len :: inner.take (inner.length - 2)) ≠ inner.drop (inner.length - 2) then .bad .crc
        else match frameOf (inner.take (inner.length - 2)) with
          | some f => .good f
          | none => .bad .length

/-! ### The serial receivers (R165, R122) -/

/-- A receiver: hunting for a delimiter, or gathering the bytes of one frame or telegram. -/
inductive Receiver where
  | hunting
  | gathering (bytes : List Byte)
  deriving DecidableEq, Repr

/-- What a serial line brings: a byte, a byte error, or a pause long enough to end a frame. -/
inductive LineEvent where
  | byte (b : Byte)
  | byteError
  | pause
  deriving DecidableEq, Repr

/-- What a receiver hands on: nothing, a whole run of bytes, or an error to be counted. -/
inductive Received where
  | nothing
  | whole (bytes : List Byte)
  | bad (e : ReceiveError)
  deriving DecidableEq, Repr

/-- The bytes gathered so far make a whole frame, or one whose length is below 6, or neither. -/
def gathered (declared : Byte → Nat) (bytes : List Byte) : Receiver × Received :=
  match bytes with
  | _ :: len :: rest =>
    if declared len < 6 then (.hunting, .bad .length)
    else if rest.length + 2 = declared len then (.hunting, .whole bytes)
    else (.gathering bytes, .nothing)
  | _ => (.gathering bytes, .nothing)

/-- R165, R122: one event at a receiver, for a delimiter and the length that a length byte declares. -/
def Receiver.take (delimiter : Byte) (declared : Byte → Nat) (r : Receiver) (e : LineEvent) : Receiver × Received :=
  match r, e with
  | .hunting, .byte b => if b = delimiter then (.gathering [b], .nothing) else (.hunting, .nothing)
  | .hunting, .byteError => (.hunting, .bad .hunting)
  | .hunting, .pause => (.hunting, .nothing)
  | .gathering l, .byte b => gathered declared (l ++ [b])
  | .gathering _, .byteError => (.hunting, .bad .byte)
  | .gathering _, .pause => (.hunting, .bad .length)

/-- The command that the host receiver's outcome is (R165). -/
def hostCommand : Received → Option Instr
  | .nothing => none
  | .bad e => some (.badFrame e)
  | .whole bytes => match judgeFrame bytes with
    | .good _ => some (.hostFrameReceived bytes)
    | .bad e => some (.badFrame e)
    | .noFrame => none

/-! ### Telegrams as bytes (R122, R181) -/

/-- A flag byte's flags of a STATE entry (R178, R181). -/
def stateFlags (b : Byte) : Bool × Bool × Bool := (b.getLsbD 0, b.getLsbD 1, b.getLsbD 2)

/-- `n` two-byte numbers from the front of a list. -/
def takeNums : Nat → List Byte → Option (List Nat × List Byte)
  | 0, l => some ([], l)
  | n + 1, a :: b :: l => (takeNums n l).map (fun r => (num2 a b :: r.1, r.2))
  | _ + 1, _ => none

/-- `n` boundary element entries of a STATE body, which end the body. -/
def takeEntries : Nat → List Byte → Option (List StateEntry)
  | 0, l => if l = [] then some [] else none
  | n + 1, a :: b :: c :: f :: l =>
    (takeEntries n l).map (fun r =>
      ⟨num2 a b, c.toNat, (stateFlags f).1, (stateFlags f).2.1, (stateFlags f).2.2⟩ :: r)
  | _ + 1, _ => none

/-- A STATE body from its bytes; none where a count exceeds its limit or the length is not that of its counts (R181). -/
def readStateBody (body : List Byte) : Option StateBody :=
  match body with
  | mode :: a :: l =>
    if 16 < a.toNat then none
    else match takeNums a.toNat l with
      | some (asks, g :: l) =>
        if 16 < g.toNat then none
        else match takeNums g.toNat l with
          | some (given, b :: l) =>
            if 8 < b.toNat then none
            else (takeEntries b.toNat l).map (fun entries => ⟨mode.toNat, asks, given, entries⟩)
          | _ => none
      | _ => none
  | _ => none

/-- A telegram of a kind and sequence, as the command it is; none where its length is not that of its kind (R181). -/
def telegramOf (link : Nat) (kind : Nat) (seq : Byte) (body : List Byte) : Option Instr :=
  match kind, body with
  | 0x01, b => (readStateBody b).map (.state link seq)
  | 0x02, n :: pattern => if pattern.length = 16 then some (.probe link seq n pattern) else none
  | 0x10, [a, b, r, c] => some (.offer link seq (num2 a b) r.toNat c.toNat)
  | 0x11, [r] => some (.accept link seq r.toNat)
  | 0x12, [r, c] => some (.refuse link seq r.toNat c.toNat)
  | 0x13, [r] => some (.withdraw link seq r.toNat)
  | 0x14, [r] => some (.released link seq r.toNat)
  | 0x18, [a, b] => some (.occupiedBeyond link seq (num2 a b))
  | 0x19, [a, b] => some (.clearedBehind link seq (num2 a b))
  | 0x20, [a, b, c, d, q] => some (.flankAsk link seq (num2 a b) (num2 c d) q.toNat)
  | 0x21, [a, b] => some (.flankGiven link seq (num2 a b))
  | 0x22, [a, b] => some (.flankRefused link seq (num2 a b))
  | 0x23, [a, b] => some (.flankWithdrawn link seq (num2 a b))
  | 0x24, [a, b] => some (.flankRelease link seq (num2 a b))
  | 0x28, [a, b] => some (.dirAsk link seq (num2 a b))
  | 0x29, [a, b] => some (.dirGive link seq (num2 a b))
  | 0x2A, [a, b] => some (.dirDeny link seq (num2 a b))
  | _, _ => none

/-- The telegram kinds (R181). -/
def telegramKinds : List Nat :=
  [0x01, 0x02, 0x10, 0x11, 0x12, 0x13, 0x14, 0x18, 0x19, 0x20, 0x21, 0x22, 0x23, 0x24, 0x28, 0x29, 0x2A]

/-- The delimiter of a telegram (R122, R181). -/
def telegramDelimiter : Byte := 0xC3

/-- The length a telegram's length byte declares: the number of its bytes (R122, R181). -/
def telegramLength (b : Byte) : Nat := b.toNat

/-- R122: a run of bytes that opens with the delimiter is judged. Its length comes first: one below 6, or other than the run's own, is a
length error. A whole telegram is judged by its CRC, then its kind, then its kind's length. The command it is; none for bytes that do not
open with the delimiter, which hunting discards. -/
def telegramCommand (link : Nat) (bytes : List Byte) : Option Instr :=
  match bytes with
  | [] => none
  | d :: rest =>
    if d ≠ telegramDelimiter then none
    else match rest with
      | len :: kind :: seq :: tail =>
        let body := tail.take (tail.length - 2)
        if telegramLength len < 6 ∨ tail.length + 4 ≠ telegramLength len then some (.badTelegram link .length)
        else if crc16Bytes (len :: kind :: seq :: body) ≠ tail.drop (tail.length - 2) then some (.badTelegram link .crc)
        else if !telegramKinds.contains kind.toNat then some (.unknownKindTelegram link seq)
        else match telegramOf link kind.toNat seq body with
          | some c => some c
          | none => some (.badTelegram link .length)
      | _ => some (.badTelegram link .length)

/-- The command that a port's receiver's outcome is (R122). -/
def portCommand (link : Nat) : Received → Option Instr
  | .nothing => none
  | .bad e => some (.badTelegram link e)
  | .whole bytes => telegramCommand link bytes

/-- The bytes of a frame between its length and its CRC (R179). -/
def frameInner (f : HostFrame) : List Byte :=
  f.kind :: f.tag :: (match f.authority with
    | none => []
    | some a => a :: f.body)

/-- A frame as bytes: the delimiter, the length of the whole, the fields and the CRC (R179). -/
def encodeFrame (f : HostFrame) : List Byte :=
  let counted := loByte ((frameInner f).length + 4) :: frameInner f
  frameDelimiter :: (counted ++ crc16Bytes counted)

/-- The request kinds and the commands they are handed on as (R167, R179). -/
def requestKinds : List (Nat × (Request → Instr)) :=
  [(0x01, .ping), (0x02, .query), (0x08, .configBegin), (0x09, .configEnd), (0x0A, .elementDef), (0x0B, .routeDef),
   (0x0C, .linkDef), (0x0D, .groupDef), (0x0E, .globalParams), (0x10, .fieldReport), (0x11, .supplyReport),
   (0x20, .setRoute), (0x21, .cancelRoute), (0x22, .commitGroup), (0x23, .cancelGroup), (0x28, .pointThrow),
   (0x30, .askDirection), (0x31, .refuseOffer), (0x38, .linkReset), (0x39, .clearCounters), (0x40, .ackFault),
   (0x41, .prepareAux), (0x42, .confirmAux)]

/-- The request kind with a code, if it is one (R179). -/
def requestKind (k : Byte) : Option (Request → Instr) :=
  (requestKinds.find? (fun p => p.1 == k.toNat)).map Prod.snd

/-- The authority a byte claims: ROUTINE 1, AUXILIARY 2; an absent byte and every other value are invalid (R178, R179). -/
def authorityOf : Option Byte → Option Authority
  | some b => if b.toNat = 1 then some .routine else if b.toNat = 2 then some .auxiliary else none
  | none => none

/-- The code of an authority (R178). -/
def Authority.code : Authority → Byte
  | .routine => 1
  | .auxiliary => 2

/-- The command a frame at the head of the request queue is handed on as. An unknown kind or an invalid authority makes
it the UNKNOWN_KIND command (R167). -/
def commandOf (f : HostFrame) : Instr :=
  match requestKind f.kind, authorityOf f.authority with
  | some c, some a => c ⟨f.tag, a, f.body⟩
  | _, _ => .unknownKind f

/-- The command a word spells by the table's bits. The table gives no row any bits, so no word spells one. -/
def decodeTableWord (_nbits _w : Nat) : Option Instr := none

end Sys2Proof
end

