-- ==== Sys2Proof/Machine/Table.lean ====
section
/-! DEFINITION. Finite tables keyed by a number, kept in increasing key order: the shape of every table of the block
(elements, routes, slots, links, fault records). An id with no entry is undefined, or at the value its reader names. -/

namespace Sys2Proof.Machine

/-- A finite table: (key, value) pairs, in increasing key order. -/
structure Table (α : Type) where
  entries : List (Nat × α) := []
  deriving DecidableEq, Repr

/-- The value first found under a key in a list of pairs. -/
def lookupKey {α : Type} (k : Nat) : List (Nat × α) → Option α
  | [] => none
  | (j, v) :: rest => if j = k then some v else lookupKey k rest

/-- A list of pairs with the value under a key written, at its place in key order. -/
def insertKey {α : Type} (k : Nat) (x : α) : List (Nat × α) → List (Nat × α)
  | [] => [(k, x)]
  | (j, v) :: rest => if j = k then (k, x) :: rest else if k < j then (k, x) :: (j, v) :: rest else (j, v) :: insertKey k x rest

/-- A list of pairs without a key. -/
def eraseKey {α : Type} (k : Nat) (l : List (Nat × α)) : List (Nat × α) := l.filter (fun p => p.1 != k)

/-- The entry under a key. -/
def Table.find {α : Type} (t : Table α) (k : Nat) : Option α := lookupKey k t.entries

/-- The table with an entry written. -/
def Table.put {α : Type} (t : Table α) (k : Nat) (x : α) : Table α := ⟨insertKey k x t.entries⟩

/-- The table with an entry removed. -/
def Table.drop {α : Type} (t : Table α) (k : Nat) : Table α := ⟨eraseKey k t.entries⟩

/-- The keys that have an entry, in order. -/
def Table.keys {α : Type} (t : Table α) : List Nat := t.entries.map Prod.fst

/-- The number of entries. -/
def Table.size {α : Type} (t : Table α) : Nat := t.entries.length

end Sys2Proof.Machine
end

