-- ==== Sys2Proof/Machine/State.lean ====
section
/-! DEFINITION. The state of the Rowzan 340, grouped by its owning blocks (00_scope.md 2.1), the outcomes a step can end
in, and the state after a cold reset. -/

namespace Sys2Proof.Machine

/-- What stops a run. The manual describes no event that stops the part, and no meaning of this model raises a fault: a
malformed input is refused, counted or ignored as its rule says. The one constructor is here because the host's interface asks
for a type of faults; nothing raises it, which is safe. -/
inductive Fault where
  /-- Raised by nothing. Safe. -/
  | neverRaised
  deriving DecidableEq, Repr

/-- Why a step has no meaning. Every command of the table has one, so no arm answers with it now. -/
inductive Refusal where
  /-- Raised by exec's arms for a command that has no meaning yet, under its name in the table. Safe. -/
  | notModelled (mnemonic : String)
  deriving DecidableEq, Repr

/-! ### Names the blocks share -/

/-- A position of a point (R6). -/
inductive Position where
  | normal | reverse
  deriving DecidableEq, Repr

/-- The other position. -/
def Position.other : Position → Position
  | .normal => .reverse
  | .reverse => .normal

/-- The state a flank claim requires of its element (R64). -/
inductive Required where
  | normal | reverse | stop
  deriving DecidableEq, Repr

/-- A position as a required state. -/
def Position.required : Position → Required
  | .normal => .normal
  | .reverse => .reverse

/-- A required state as a position; none for STOP. -/
def Required.position : Required → Option Position
  | .normal => some .normal
  | .reverse => some .reverse
  | .stop => none

/-- A timer that runs to a deadline. -/
inductive Timer where
  | stopped
  | running (deadline : Time)
  deriving DecidableEq, Repr

/-- The timer has run to its deadline at `now`. -/
def Timer.expired (t : Timer) (now : Time) : Bool :=
  match t with
  | .stopped => false
  | .running d => Time.reached now d

/-- The subject of a report or of a fault (R169, R151). -/
inductive Subject where
  | element (id : Nat)
  | slot (id : Nat)
  | link (id : Nat)
  | faultIndex (index : Nat)
  | boundary (id : Nat)
  | device
  | group (id : Nat)
  deriving DecidableEq, Repr

/-! ### Configuration -/

/-- The role of a boundary element (01, 1.1). -/
inductive Role where
  | exit | entry | both
  deriving DecidableEq, Repr

/-- A configured element (01, 1.1). `own` is the element's own limit, present exactly when its individual flag is set. -/
inductive ElementDef where
  | sect (length : Nat)
  | point (within group : Nat) (guarded individual : Bool) (own : Option Nat)
  | signal (individual : Bool) (own : Option Nat)
  | boundary (link remote : Nat) (role : Role) (adjacent : Nat)
  deriving DecidableEq, Repr

/-- The class of a route (R22). -/
inductive RouteClass where
  | main | shunt | entry
  deriving DecidableEq, Repr

/-- A point requirement (R24). -/
structure PointReq where
  point    : Nat
  position : Position
  deriving DecidableEq, Repr

/-- An overlap (R25). -/
structure Overlap where
  sections : List Nat
  points   : List PointReq
  release  : Nat
  deriving DecidableEq, Repr

/-- A flank candidate (02, 2.1). -/
inductive Candidate where
  | localPoint (point : Nat) (position : Position)
  | localSignal (signal : Nat)
  | remote (link element : Nat) (required : Required)
  deriving DecidableEq, Repr

/-- A flank requirement (R26). -/
structure FlankReq where
  guarded    : Nat
  candidates : List Candidate
  deriving DecidableEq, Repr

/-- A route definition (02, 2.1). -/
structure RouteDef where
  cls       : RouteClass
  entry     : Nat
  exit      : Nat
  path      : List Nat
  points    : List PointReq
  overlap   : Option Overlap
  flank     : List FlankReq
  approach  : List Nat
  vmax      : Nat
  decel     : Nat
  reaction  : Nat
  fixedTime : Nat
  deriving DecidableEq, Repr

/-- A link's parameters (R118). -/
structure LinkParams where
  period  : Nat
  los     : Nat
  inLock  : Nat
  outLock : Nat
  answer  : Nat
  senior  : Bool
  deriving DecidableEq, Repr

/-- Which definition a stored record is of (R171). -/
inductive RecordKey where
  | element (id : Nat)
  | route (id : Nat)
  | link (id : Nat)
  | group (id : Nat)
  | params
  deriving DecidableEq, Repr

/-- A stored definition record: what it defines, and its body (R171). -/
structure StoredRecord where
  key  : RecordKey
  body : List Byte
  deriving DecidableEq, Repr

/-- The configuration: element table, route library, link and group definitions, global parameters in force, and in
CONFIGURING the stored-record list (R171). -/
structure Configuration where
  elements : Table ElementDef := {}
  routes   : Table RouteDef := {}
  links    : Table LinkParams := {}
  groups   : Table Nat := {}
  params   : Params := {}
  stored   : List StoredRecord := []
  deriving DecidableEq, Repr

/-! ### Field Image -/

/-- Section detection (R3). -/
inductive Occupation where
  | unknown | clear | occupied | disturbed
  deriving DecidableEq, Repr

/-- A passage mark (R5). -/
inductive PassageMark where
  | disarmed | armed (isSet : Bool)
  deriving DecidableEq, Repr

/-- The run-time fields of a section kept by the FI (01, 1.1). -/
structure SectionImage where
  held       : Occupation := .unknown
  latest     : Option Occupation := none
  occupiedAt : Option Time := none
  clearedAt  : Option Time := none
  mark       : PassageMark := .disarmed
  deriving DecidableEq, Repr

/-- Point detection (R6). -/
inductive Detection where
  | unknown | normal | reverse | moving | lost
  deriving DecidableEq, Repr

/-- Signal proving (R7). -/
inductive Proving where
  | unknown | stopProven | proceedProven | notProven
  deriving DecidableEq, Repr

/-- The run-time fields of a signal kept by the FI: proving and withdrawal supervision (R7, R16). -/
structure SignalImage where
  proving    : Proving := .unknown
  withdrawal : Timer := .stopped
  deriving DecidableEq, Repr

/-- A group's supply state (R11). -/
inductive Supply where
  | unknown | on | off
  deriving DecidableEq, Repr

/-- The FI's state. -/
structure FieldImage where
  sections    : Table SectionImage := {}
  points      : Table Detection := {}
  signals     : Table SignalImage := {}
  supplies    : Table Supply := {}
  outstanding : Nat := 0
  deriving DecidableEq, Repr

/-! ### Locking Engine, with the fields of the FE and RU in each slot -/

/-- The kind of a lock (R37). -/
inductive LockKind where
  | path | overlap
  deriving DecidableEq, Repr

/-- A lock record; for a point, with the position it requires (R37). -/
structure Lock where
  holder   : Nat
  kind     : LockKind
  firm     : Bool
  required : Option Position
  deriving DecidableEq, Repr

/-- A signal's permission (R56). -/
inductive Permission where
  | stop | proceed
  deriving DecidableEq, Repr

/-- Slot states (03; OPEN is `opened`). -/
inductive SlotState where
  | free | pending | locked | opened | passing | approachLocked | timedRelease | awaitReleased
  deriving DecidableEq, Repr

/-- Commit needs (R46). -/
structure Needs where
  group      : Bool := false
  acceptance : Bool := false
  flank      : Bool := false
  deriving DecidableEq, Repr

/-- Waiting reasons (R54). -/
structure Waiting where
  points         : Bool := false
  flank          : Bool := false
  signalFlankHeld : Bool := false
  sections       : Bool := false
  boundary       : Bool := false
  link           : Bool := false
  mode           : Bool := false
  proving        : Bool := false
  deriving DecidableEq, Repr

/-- Drop reasons (R35). -/
inductive DropReason where
  | cancelled | groupCancelled | timeout | refused | offerTimeout | flankUnavailable | linkDown | directionConflict
  deriving DecidableEq, Repr

/-- Release reasons (R35). -/
inductive ReleaseReason where
  | cancelled | passed | approachExpired | emergency
  deriving DecidableEq, Repr

/-- How a slot last became FREE (R35). -/
inductive LastOutcome where
  | none
  | dropped (reason : DropReason)
  | released (reason : ReleaseReason)
  deriving DecidableEq, Repr

/-- Requirement states (R65). -/
inductive ReqState where
  | held | asked | lost | released
  deriving DecidableEq, Repr

/-- A requirement record (R65). The ask reference is the slot id × 16 + the requirement index, and is computed. -/
structure Requirement where
  state     : ReqState
  candidate : Option Nat := none
  firm      : Bool := false
  satisfied : Bool := false
  deferred  : Bool := false
  answer    : Timer := .stopped
  deriving DecidableEq, Repr

/-- Overlap states (R98). -/
inductive OverlapState where
  | none | held | timing | released
  deriving DecidableEq, Repr

/-- Approach methods (R30). -/
inductive ApproachMethod where
  | computed | fixed
  deriving DecidableEq, Repr

/-- The measurement of R111: the pair of sections timed and the time between the two arrivals. -/
structure Measurement where
  first  : Nat
  second : Nat
  dt     : Nat
  deriving DecidableEq, Repr

/-- The release record of a slot (R98). -/
structure ReleaseRecord where
  passedAt       : Option Time := none
  released       : Nat := 0
  overlap        : OverlapState := .none
  overlapTimer   : Timer := .stopped
  clearedBehind  : Bool := false
  method         : Option ApproachMethod := none
  measurement    : Option Measurement := none
  vUsed          : Option Nat := none
  releaseTime    : Option Nat := none
  speedClamped   : Bool := false
  timeClamped    : Bool := false
  approachTimer  : Timer := .stopped
  emergencyTimer : Timer := .stopped
  deriving DecidableEq, Repr

/-- A route slot (R35). The offer state is a view of the exit boundary element's outgoing offer, and is computed.
`neighbourReason` is the reason a REFUSE carried (R53). `unproven` is the model's own: the proving timer of the slot has expired, and no
event of R56 has concerned the slot since (R57, log 35). -/
structure Slot where
  state           : SlotState := .free
  route           : Option Nat := none
  group           : Option Nat := none
  needs           : Needs := {}
  waiting         : Waiting := {}
  hasBeenOpened   : Bool := false
  pendingSince    : Option Time := none
  pendingTimer    : Timer := .stopped
  provingTimer    : Timer := .stopped
  unproven        : Bool := false
  requirements    : List Requirement := []
  rel             : ReleaseRecord := {}
  lastOutcome     : LastOutcome := .none
  neighbourReason : Option Nat := none
  deriving DecidableEq, Repr

/-- The LE's state. An element with no entry in `locks` is not locked; a signal with none in `permissions` is at STOP; a
slot with none is FREE with no last outcome. -/
structure Locking where
  slots       : Table Slot := {}
  locks       : Table Lock := {}
  permissions : Table Permission := {}
  deriving DecidableEq, Repr

/-- A flank claim record with a count above 0; an element with no entry has count 0 (R64). -/
structure Claim where
  required : Required
  count    : Nat
  deriving DecidableEq, Repr

/-! ### Point Movement Controller -/

/-- Throw states (R83). -/
inductive ThrowState where
  | atRest | queued | moving | faulted
  deriving DecidableEq, Repr

/-- A throw order; `demand` is its origin, DEMAND or HOST (R84). It is active exactly while its point is MOVING. -/
structure Order where
  target : Position
  demand : Bool
  deriving DecidableEq, Repr

/-- A throw timer (R83). -/
inductive ThrowTimer where
  | stopped
  | running (deadline : Time)
  | paused (remaining : Nat)
  deriving DecidableEq, Repr

/-- Fault reasons of a point (R83). -/
inductive ThrowFault where
  | throwTimeout | detectionLost | supplyTimeout
  deriving DecidableEq, Repr

/-- A throw record (R83). -/
structure Throw where
  state  : ThrowState := .atRest
  order  : Option Order := none
  timer  : ThrowTimer := .stopped
  reason : Option ThrowFault := none
  deriving DecidableEq, Repr

/-- A power group's record; its moving count is computed from the throw records (R88). -/
structure PowerGroup where
  queue     : List Nat := []
  lossTimer : Timer := .stopped
  deriving DecidableEq, Repr

/-- The PMC's state. -/
structure PointMovement where
  throws : Table Throw := {}
  groups : Table PowerGroup := {}
  deriving DecidableEq, Repr

/-! ### Boundary links and handover -/

/-- Link states (R117). -/
inductive LinkState where
  | disabled | down | proving | up | suspect
  deriving DecidableEq, Repr

/-- Telegrams this part sends (11.4), with the fields of their bodies. -/
inductive Telegram where
  | probe (number : Byte) (pattern : List Byte)
  | state (body : StateBody)
  | offer (element reference cls : Nat)
  | accept (reference : Nat)
  | refuse (reference reason : Nat)
  | withdraw (reference : Nat)
  | released (reference : Nat)
  | occupiedBeyond (element : Nat)
  | clearedBehind (element : Nat)
  | flankAsk (reference element required : Nat)
  | flankGiven (reference : Nat)
  | flankRefused (reference : Nat)
  | flankWithdrawn (reference : Nat)
  | flankRelease (reference : Nat)
  | dirAsk (element : Nat)
  | dirGive (element : Nat)
  | dirDeny (element : Nat)
  deriving DecidableEq, Repr

/-- The seven counters of a link (R117). -/
structure LinkCounters where
  good     : Nat := 0
  crc      : Nat := 0
  length   : Nat := 0
  byte     : Nat := 0
  gaps     : Nat := 0
  mismatch : Nat := 0
  unknown  : Nat := 0
  deriving DecidableEq, Repr

/-- A given claim (R79). -/
structure GivenClaim where
  reference : Nat
  element   : Nat
  required  : Required
  given     : Bool := false
  withdrawn : Bool := false
  deriving DecidableEq, Repr

/-- A link record (R117), with the telegram now leaving, the FE's given claims and retired asks (R79, R73), the HC's retired
offers (R134) and the neighbour's mode (R148). `freshUp` is set while no good telegram has been taken since the one that
brought the link to UP (R126). -/
structure Link where
  state         : LinkState := .disabled
  counters      : LinkCounters := {}
  txSeq         : Byte := 0
  sending       : Option (Byte × Telegram) := none
  queue         : List Telegram := []
  sendTimer     : Timer := .stopped
  lastSeq       : Option Byte := none
  outProbe      : Byte := 0
  generator     : BitVec 16 := 0
  expProbe      : Byte := 0
  checker       : BitVec 16 := 0
  cleanRun      : Nat := 0
  goodRun       : Nat := 0
  badRun        : Nat := 0
  missWatch     : Timer := .stopped
  losTimer      : Timer := .stopped
  freshUp       : Bool := false
  neighbourMode : Option Nat := none
  given         : List GivenClaim := []
  retiredAsks   : List Nat := []
  retiredOffers : List (Nat × Nat) := []
  deriving DecidableEq, Repr

/-- Directions of a BOTH element (R131). -/
inductive Direction where
  | unknown | outbound | inbound | asking
  deriving DecidableEq, Repr

/-- An outgoing offer (R131). -/
structure OutgoingOffer where
  slot     : Nat
  accepted : Bool := false
  deferred : Bool := false
  sentAt   : Option Time := none
  answer   : Timer := .stopped
  deriving DecidableEq, Repr

/-- An incoming offer (R131). -/
structure IncomingOffer where
  reference : Nat
  cls       : Nat
  accepted  : Bool := false
  deriving DecidableEq, Repr

/-- A boundary element record (R131). The direction of a BOTH element that has no entry yet is UNKNOWN; for the other roles
it is absent, and this field is not read. -/
structure Boundary where
  direction       : Direction := .unknown
  dirTimer        : Timer := .stopped
  outgoing        : Option OutgoingOffer := none
  incoming        : Option IncomingOffer := none
  entrySlot       : Option Nat := none
  awaited         : Option Nat := none
  occupiedBeyond  : Bool := false
  releasedPending : Option Nat := none
  deriving DecidableEq, Repr

/-! ### Supervision Unit and Host Link Controller -/

/-- Device modes (09, 9.4). -/
inductive Mode where
  | unconfigured | configuring | startup | restricted | normal | safeHold
  deriving DecidableEq, Repr

/-- The fourteen fault kinds (R152), in code order. -/
inductive FaultKind where
  | pointThrowTimeout | pointDetectionLost | pointUncommandedMove | supplyTimeout | signalNotProven | signalWrongSide
  | unexpectedOccupancy | unauthorisedPassing | sectionDisturbed | flankLost | linkDown | directionConflict | hostSilent
  | hostSilentLong
  deriving DecidableEq, Repr

/-- States of a fault record (R151). -/
inductive RecordState where
  | active | acked | cleared
  deriving DecidableEq, Repr

/-- A fault record; its index is its key and its class follows from its kind (R151). -/
structure FaultRecord where
  kind     : FaultKind
  subject  : Subject
  raisedAt : Time
  count    : Nat
  state    : RecordState
  deriving DecidableEq, Repr

/-- The SU's state. `causes` are the causes the owning blocks keep (R152). The silence timer is its two deadlines (R158). -/
structure Supervision where
  mode          : Mode := .unconfigured
  enableOut     : Bool := false
  faults        : Table FaultRecord := {}
  overflow      : Bool := false
  causes        : List (FaultKind × Subject) := []
  silenceFirst  : Timer := .stopped
  silenceSecond : Timer := .stopped
  deriving DecidableEq, Repr

/-- Auxiliary kinds (R160). -/
inductive AuxKind where
  | restoreSection | emergencyRelease | releaseGivenFlank | resume | restart
  deriving DecidableEq, Repr

/-- The auxiliary preparation (R160). The subject is the two bytes of its field, 0 for the device. -/
structure Preparation where
  kind     : AuxKind
  subject  : Nat
  deadline : Time
  deriving DecidableEq, Repr

/-- The outcome of a reply (R166). -/
inductive ReplyOutcome where
  | done | accepted | refused
  deriving DecidableEq, Repr

/-- A reply (R166, R179): `kind` is the request's kind byte, `reason` a refusal code or 0. -/
structure Reply where
  tag     : Byte
  outcome : ReplyOutcome
  reason  : Nat
  kind    : Byte
  data    : List Byte
  deriving DecidableEq, Repr

/-- A frame on the transmit line: a reply, or a report with its kind and body (R168, R180). -/
inductive LineFrame where
  | reply (r : Reply)
  | report (kind : Byte) (body : List Byte)
  deriving DecidableEq, Repr

/-- The host link counters (R165). -/
structure HostCounters where
  good      : Nat := 0
  crc       : Nat := 0
  length    : Nat := 0
  byte      : Nat := 0
  queueFull : Nat := 0
  deriving DecidableEq, Repr

/-- The HLC's state, but for the report queue: receive counters, request queue, reply list, transmit line and auxiliary
preparation. -/
structure HostLink where
  counters    : HostCounters := {}
  requests    : List HostFrame := []
  replies     : List Reply := []
  line        : Option LineFrame := none
  preparation : Option Preparation := none
  deriving DecidableEq, Repr

/-- A change waiting to be taken, within the event that made it, by the blocks it is passed to (R10, R56, R71, R75, R128). -/
inductive Work where
  /-- A change of throw state or detection of a point (R56, R71). -/
  | point (id : Nat)
  /-- A change of a point's lock record (R38, R71). -/
  | lock (id : Nat)
  /-- A change of a point's throw order that leaves its throw state as it was (R56). -/
  | order (id : Nat)
  /-- A change of a section's held detection (R56, R71). -/
  | sect (id : Nat)
  /-- A change of a signal's permission, or of the state of a slot whose entry it is (R71). -/
  | signal (id : Nat)
  /-- A change of a signal's proving (R56). -/
  | proving (id : Nat)
  /-- A change of a point's or signal's flank claim record (R56, R64, R71). -/
  | claim (id : Nat)
  /-- A change of a requirement record of a slot (R56). -/
  | requirement (slot : Nat)
  /-- A change of a slot's state. -/
  | slot (id : Nat)
  /-- A change of the outgoing offer of a boundary element (R56). -/
  | offer (id : Nat)
  /-- Any other change of a boundary element's record (R56, R131). -/
  | boundary (id : Nat)
  /-- A point became FAULTED (R75, R81). -/
  | faulted (id : Nat)
  /-- A signal's proving left STOP_PROVEN for NOT_PROVEN or PROCEED_PROVEN (R75, R81). -/
  | unproved (id : Nat)
  /-- A link reached UP (R71, R72, R133). -/
  | linkUp (id : Nat)
  /-- The asks on a link fell below 16 (R71). -/
  | askRoom (id : Nat)
  /-- A link entered DOWN (R128). -/
  | linkDown (id : Nat)
  /-- A change of mode, or the raising or going of the cause of HOST_SILENT: a change that concerns every slot (R56). -/
  | conditions
  deriving DecidableEq, Repr

/-- The receive side of one serial line: its receiver (R165, R122), what the line has brought that it has not yet taken, and when it
took its last byte. The last two are the model's own (log 8). -/
structure LineInput where
  receiver : Receiver := .hunting
  arrived  : List LineEvent := []
  lastByte : Time := 0
  deriving DecidableEq, Repr

/-- The receive sides of the host link and of the ports. A port with no entry is hunting, with nothing arrived. -/
structure LineInputs where
  host  : LineInput := {}
  ports : Table LineInput := {}
  deriving DecidableEq, Repr

/-- The machine. `work` and `choices` are the model's own: the changes still to be taken within an event, and the number
of free choices made. `pending` is the queue of commands that wait to be taken, first in, first out. -/
structure State where
  time       : Time := 0
  cfg        : Configuration := {}
  field      : FieldImage := {}
  locking    : Locking := {}
  claims     : Table Claim := {}
  movement   : PointMovement := {}
  links      : Table Link := {}
  boundaries : Table Boundary := {}
  su         : Supervision := {}
  host       : HostLink := {}
  inputs     : LineInputs := {}
  reports    : List Subject := []
  work       : List Work := []
  choices    : Nat := 0
  pending    : List Instr := []
  deriving DecidableEq, Repr

/-- After a cold reset: device time 0, UNCONFIGURED, ENABLE_OUT low, no configuration and every parameter at its default,
every queue and table empty, every counter 0, every link DISABLED (R176). -/
def State.reset : State := {}

end Sys2Proof.Machine
end

