-- ==== Sys2Proof/Machine/Views.lean ====
section
/-! DEFINITION. What the blocks read: the records under their ids, and the conditions the chapters name (a section is
CLEAR, a point is in position, a link is DOWN, a candidate is satisfied). Nothing here changes the state. -/

namespace Sys2Proof.Machine

/-! ### Records under their ids -/

/-- The definition of an element, if one is configured (01, 1.1). -/
def State.defn (s : State) (e : Nat) : Option ElementDef := s.cfg.elements.find e
/-- A section's run-time record. -/
def State.sect (s : State) (e : Nat) : SectionImage := (s.field.sections.find e).getD {}
/-- A point's detection. -/
def State.detection (s : State) (p : Nat) : Detection := (s.field.points.find p).getD .unknown
/-- A signal's run-time record of the FI. -/
def State.signal (s : State) (g : Nat) : SignalImage := (s.field.signals.find g).getD {}
/-- A group's supply state. -/
def State.supply (s : State) (g : Nat) : Supply := (s.field.supplies.find g).getD .unknown
/-- A route slot. -/
def State.slot (s : State) (i : Nat) : Slot := (s.locking.slots.find i).getD {}
/-- The lock record of a section or point. -/
def State.lock (s : State) (e : Nat) : Option Lock := s.locking.locks.find e
/-- A signal's permission. -/
def State.permission (s : State) (g : Nat) : Permission := (s.locking.permissions.find g).getD .stop
/-- A flank claim record with a count above 0. -/
def State.claim (s : State) (e : Nat) : Option Claim := s.claims.find e
/-- A throw record. -/
def State.throwOf (s : State) (p : Nat) : Throw := (s.movement.throws.find p).getD {}
/-- A power group's record. -/
def State.powerGroup (s : State) (g : Nat) : PowerGroup := (s.movement.groups.find g).getD {}
/-- A link record. -/
def State.link (s : State) (l : Nat) : Link := (s.links.find l).getD {}
/-- The receive side of a port. -/
def State.portInput (s : State) (l : Nat) : LineInput := (s.inputs.ports.find l).getD {}
/-- A boundary element record. -/
def State.boundary (s : State) (e : Nat) : Boundary := (s.boundaries.find e).getD {}
/-- A route definition. -/
def State.routeDef (s : State) (r : Nat) : Option RouteDef := s.cfg.routes.find r
/-- A link's parameters; for a link that no LINK_DEF defines, all 0. -/
def State.linkParams (s : State) (l : Nat) : LinkParams := (s.cfg.links.find l).getD ⟨0, 0, 0, 0, 0, false⟩

/-- The slot ids, in order. -/
def slotIds : List Nat := List.range Config.slotCount
/-- The link ids, in order. -/
def linkIds : List Nat := List.range Config.linkCount
/-- The power group ids, in order. -/
def groupIds : List Nat := List.range Config.groupCount

/-! ### Elements -/

/-- The element is a SECTION. -/
def State.isSection (s : State) (e : Nat) : Bool := match s.defn e with
  | some (.sect _) => true
  | _ => false
/-- The element is a POINT. -/
def State.isPoint (s : State) (e : Nat) : Bool := match s.defn e with
  | some (.point ..) => true
  | _ => false
/-- The element is a SIGNAL. -/
def State.isSignal (s : State) (e : Nat) : Bool := match s.defn e with
  | some (.signal ..) => true
  | _ => false
/-- The element is a BOUNDARY element. -/
def State.isBoundary (s : State) (e : Nat) : Bool := match s.defn e with
  | some (.boundary ..) => true
  | _ => false

/-- The section that contains a point; 65535, which is no element, when the id is no point. -/
def State.containing (s : State) (p : Nat) : Nat := match s.defn p with
  | some (.point within _ _ _ _) => within
  | _ => 65535
/-- The power group of a point; none when the id is no point. -/
def State.groupOf (s : State) (p : Nat) : Option Nat := match s.defn p with
  | some (.point _ g _ _ _) => some g
  | _ => none
/-- The link of a boundary element. -/
def State.linkOf (s : State) (e : Nat) : Option Nat := match s.defn e with
  | some (.boundary l _ _ _) => some l
  | _ => none
/-- The remote element id of a boundary element. -/
def State.remoteOf (s : State) (e : Nat) : Nat := match s.defn e with
  | some (.boundary _ r _ _) => r
  | _ => 65535
/-- The role of a boundary element. -/
def State.roleOf (s : State) (e : Nat) : Option Role := match s.defn e with
  | some (.boundary _ _ role _) => some role
  | _ => none
/-- The adjacent local section of a boundary element. -/
def State.adjacentOf (s : State) (e : Nat) : Nat := match s.defn e with
  | some (.boundary _ _ _ a) => a
  | _ => 65535
/-- The boundary elements of a link, in increasing id order. -/
def State.boundariesOn (s : State) (l : Nat) : List Nat :=
  s.cfg.elements.keys.filter (fun e => s.linkOf e == some l)
/-- The points of the area, in increasing id order. -/
def State.points (s : State) : List Nat := s.cfg.elements.keys.filter s.isPoint
/-- The points of a power group, in increasing id order. -/
def State.pointsOf (s : State) (g : Nat) : List Nat := s.points.filter (fun p => s.groupOf p == some g)

/-! ### Detection (R3, R6, R7) -/

/-- A section is CLEAR; every other held detection counts as occupied (R3). -/
def State.isClear (s : State) (e : Nat) : Bool := (s.sect e).held == .clear
/-- A section counts as occupied (R3). -/
def State.isOccupied (s : State) (e : Nat) : Bool := !s.isClear e
/-- The detection that shows a point in a position. -/
def Position.detection : Position → Detection
  | .normal => .normal
  | .reverse => .reverse
/-- The position a detection shows, if it is a rest detection (R6). -/
def Detection.position : Detection → Option Position
  | .normal => some .normal
  | .reverse => some .reverse
  | _ => none
/-- A point is detected in a position (R6). -/
def State.detectedIn (s : State) (p : Nat) (pos : Position) : Bool := s.detection p == pos.detection
/-- A point is in a position (R6). -/
def State.atRest (s : State) (p : Nat) : Bool := (s.detection p).position.isSome
/-- A signal is proved at stop (R7). -/
def State.stopProven (s : State) (g : Nat) : Bool := (s.signal g).proving == .stopProven

/-! ### Claims, locks and orders -/

/-- The flank claim count (R64). -/
def State.claimCount (s : State) (e : Nat) : Nat := match s.claim e with
  | some c => c.count
  | none => 0
/-- The state an element's claims require (R64). -/
def State.claimState (s : State) (e : Nat) : Option Required := (s.claim e).map Claim.required
/-- The point holds a lock. -/
def State.isLocked (s : State) (e : Nat) : Bool := (s.lock e).isSome
/-- The point holds a lock or has a claim count above 0. -/
def State.isHeld (s : State) (p : Nat) : Bool := s.isLocked p || decide (0 < s.claimCount p)
/-- The position the point's lock requires. -/
def State.lockPosition (s : State) (p : Nat) : Option Position := match s.lock p with
  | some l => l.required
  | none => none
/-- The position the point's claims require. -/
def State.claimPosition (s : State) (p : Nat) : Option Position := match s.claimState p with
  | some r => r.position
  | none => none
/-- The position the point's lock and claims require: the lock's, or without a lock the claims' (R84). -/
def State.requiredPosition (s : State) (p : Nat) : Option Position := match s.lockPosition p with
  | some pos => some pos
  | none => s.claimPosition p
/-- The point's lock or claims require this position (R84, R94). -/
def State.requires (s : State) (p : Nat) (pos : Position) : Bool :=
  s.lockPosition p == some pos || s.claimPosition p == some pos
/-- The point has a throw order to this position, whatever its state (R83). -/
def State.orderedTo (s : State) (p : Nat) (pos : Position) : Bool := match (s.throwOf p).order with
  | some o => o.target == pos
  | none => false
/-- The point is FAULTED. -/
def State.isFaulted (s : State) (p : Nat) : Bool := (s.throwOf p).state == .faulted

/-- The effective throw limit of a point (R14). -/
def State.throwLimit (s : State) (p : Nat) : Nat := match s.defn p with
  | some (.point _ _ _ true (some own)) => own
  | _ => s.cfg.params.throwLimit
/-- The effective proving limit of a signal (R14). -/
def State.provingLimit (s : State) (g : Nat) : Nat := match s.defn g with
  | some (.signal true (some own)) => own
  | _ => s.cfg.params.provingLimit

/-- The number of MOVING points of a group (R88). -/
def State.movingCount (s : State) (g : Nat) : Nat :=
  ((s.pointsOf g).filter (fun p => (s.throwOf p).state == .moving)).length
/-- The concurrency limit of a group (R88); 0 for a group that is not defined (DESIGN CHOICE in its report, log 25). -/
def State.groupLimit (s : State) (g : Nat) : Nat := (s.cfg.groups.find g).getD 0

/-! ### Slots -/

/-- The slot is in use (R36). -/
def State.inUse (s : State) (i : Nat) : Bool := (s.slot i).state != .free
/-- The route definition a slot holds. -/
def State.routeOf (s : State) (i : Nat) : Option RouteDef := match (s.slot i).route with
  | some r => s.routeDef r
  | none => none
/-- The entry element of a slot's route. -/
def State.entryOf (s : State) (i : Nat) : Option Nat := (s.routeOf i).map RouteDef.entry
/-- The entry signal of a slot's route, for a MAIN or SHUNT route (R22). -/
def State.entrySignal (s : State) (i : Nat) : Option Nat := match s.routeOf i with
  | some r => if r.cls = .entry then none else some r.entry
  | none => none
/-- The entry boundary element of a slot's route, for an ENTRY route (R22). -/
def State.entryBoundary (s : State) (i : Nat) : Option Nat := match s.routeOf i with
  | some r => if r.cls = .entry then some r.entry else none
  | none => none
/-- The exit boundary element of a route whose exit kind is BOUNDARY_EXIT (R30). -/
def State.exitBoundaryOf (s : State) (r : RouteDef) : Option Nat := if s.isBoundary r.exit then some r.exit else none
/-- The exit boundary element of a slot's route. -/
def State.exitBoundary (s : State) (i : Nat) : Option Nat := match s.routeOf i with
  | some r => s.exitBoundaryOf r
  | none => none
/-- The outgoing offer of a slot, with the boundary element that holds it: the slot's offer state (R35). -/
def State.offerOf (s : State) (i : Nat) : Option (Nat × OutgoingOffer) := match s.exitBoundary i with
  | some e => match (s.boundary e).outgoing with
    | some o => if o.slot = i then some (e, o) else none
    | none => none
  | none => none

/-- The sections of an overlap; none when it is absent. -/
def RouteDef.overlapSections (r : RouteDef) : List Nat := match r.overlap with
  | some o => o.sections
  | none => []
/-- The point requirements of an overlap; none when it is absent. -/
def RouteDef.overlapPoints (r : RouteDef) : List PointReq := match r.overlap with
  | some o => o.points
  | none => []
/-- Path point requirements, then overlap point requirements. -/
def RouteDef.allPoints (r : RouteDef) : List PointReq := r.points ++ r.overlapPoints
/-- Path sections, then overlap sections. -/
def RouteDef.allSections (r : RouteDef) : List Nat := r.path ++ r.overlapSections
/-- Derived property of R30: the approach method. -/
def RouteDef.method (r : RouteDef) : ApproachMethod :=
  if r.cls = .main ∧ r.approach ≠ [] then .computed else .fixed
/-- Derived property of R30: a route with no approach sections counts as always approached. -/
def RouteDef.alwaysApproached (r : RouteDef) : Bool := r.approach.isEmpty
/-- Derived property of R30: the requirement's release place is the overlap, because its point is an overlap point; otherwise it
is the release section of a path point. -/
def RouteDef.releasedWithOverlap (r : RouteDef) (q : FlankReq) : Bool :=
  !(r.points.any (fun x => x.point == q.guarded))
/-- The first path section, S1 (R23). -/
def RouteDef.firstSection (r : RouteDef) : Option Nat := r.path.head?
/-- The last path section, Sn (R23). -/
def RouteDef.lastSection (r : RouteDef) : Option Nat := r.path.getLast?

/-- The approach of a route is occupied: an approach section is not CLEAR, or there is none (R61, R28). -/
def State.approachOccupied (s : State) (r : RouteDef) : Bool :=
  r.alwaysApproached || r.approach.any s.isOccupied

/-- A slot's requirement record. -/
def State.requirement (s : State) (i j : Nat) : Option Requirement := (s.slot i).requirements[j]?
/-- The candidates of a slot's flank requirement. -/
def State.candidates (s : State) (i j : Nat) : List Candidate := match s.routeOf i with
  | some r => match r.flank[j]? with
    | some q => q.candidates
    | none => []
  | none => []
/-- The chosen candidate of a slot's flank requirement (R65). -/
def State.chosen (s : State) (i j : Nat) : Option Candidate := match s.requirement i j with
  | some q => match q.candidate with
    | some k => (s.candidates i j)[k]?
    | none => none
  | none => none
/-- The link of the chosen remote candidate of a requirement that is ASKED or HELD. -/
def State.askLink (s : State) (i j : Nat) : Option Nat := match s.requirement i j, s.chosen i j with
  | some q, some (.remote l _ _) => if q.state = .asked ∨ q.state = .held then some l else none
  | _, _ => none
/-- The requirement indices of a slot. -/
def State.requirementIds (s : State) (i : Nat) : List Nat := List.range (s.slot i).requirements.length
/-- Every (slot, requirement) pair, in increasing slot id order and within a slot in requirement index order (R69). -/
def State.allRequirements (s : State) : List (Nat × Nat) :=
  slotIds.flatMap (fun i => (s.requirementIds i).map (fun j => (i, j)))
/-- The number of requirements ASKED or HELD on a link (R68). -/
def State.askCount (s : State) (l : Nat) : Nat :=
  (s.allRequirements.filter (fun p => s.askLink p.1 p.2 == some l)).length
/-- The ask reference of a requirement (R65). -/
def askReference (i j : Nat) : Nat := i * 16 + j

/-- A local candidate is in its claimed state: the point detected in its claimed position, the signal STOP_PROVEN (R65). -/
def State.inClaimedState (s : State) : Candidate → Bool
  | .localPoint p pos => s.detectedIn p pos
  | .localSignal g => s.stopProven g
  | .remote .. => true
/-- An element is in the state a given claim holds it in (R81). -/
def State.inRequiredState (s : State) (e : Nat) : Required → Bool
  | .normal => s.detectedIn e .normal
  | .reverse => s.detectedIn e .reverse
  | .stop => s.stopProven e

/-! ### Links and boundary elements -/

/-- A link in DOWN, PROVING or DISABLED is DOWN (R128). -/
def LinkState.isDown : LinkState → Bool
  | .up | .suspect => false
  | _ => true
/-- The link is DOWN for the blocks above the port (R128). -/
def State.linkDown (s : State) (l : Nat) : Bool := (s.link l).state.isDown
/-- The link is UP. -/
def State.linkUp (s : State) (l : Nat) : Bool := (s.link l).state == .up
/-- The direction of a BOTH element is this one. -/
def State.directionIs (s : State) (e : Nat) (d : Direction) : Bool :=
  s.roleOf e == some .both && (s.boundary e).direction == d
/-- The boundary element on a link with an id, if there is one (R132). -/
def State.boundaryOn (s : State) (l e : Nat) : Bool := s.linkOf e == some l

/-! ### Fault causes (R152, the table of 9.2) -/

/-- The classes of fault kinds. -/
inductive FaultClass where
  | minor | major | critical
  deriving DecidableEq, Repr

/-- The class of a fault kind (R152). -/
def FaultKind.cls : FaultKind → FaultClass
  | .pointThrowTimeout | .pointDetectionLost | .pointUncommandedMove | .supplyTimeout | .unauthorisedPassing
  | .directionConflict | .hostSilent => .major
  | .signalWrongSide | .hostSilentLong => .critical
  | .signalNotProven | .unexpectedOccupancy | .sectionDisturbed | .flankLost | .linkDown => .minor

/-- The point's detection is a position acceptable to it (R18). -/
def State.acceptable (s : State) (p : Nat) : Bool := match (s.detection p).position with
  | some pos => if s.isHeld p then s.requiredPosition p == some pos else true
  | none => false

/-- Some slot in use has this element as its entry. -/
def State.isEntryInUse (s : State) (e : Nat) : Bool := slotIds.any (fun i => s.inUse i && s.entryOf i == some e)

/-- The condition that a fault's cause is on its block's state, for each kind that has one (R152 and the rules its table
names). The kinds whose cause goes on an event (DIRECTION_CONFLICT, HOST_SILENT, HOST_SILENT_LONG) answer true here. -/
def State.causeHolds (s : State) : FaultKind → Subject → Bool
  | .pointThrowTimeout, .element p | .pointDetectionLost, .element p => s.isFaulted p
  | .pointUncommandedMove, .element p => !s.acceptable p
  | .supplyTimeout, .group g =>
      (s.pointsOf g).any (fun p => s.isFaulted p && (s.throwOf p).reason == some .supplyTimeout)
  | .signalNotProven, .element g =>
      !((s.signal g).proving == .proceedProven && s.permission g == .proceed) && s.isEntryInUse g
  | .signalWrongSide, .element g => !s.stopProven g
  | .unexpectedOccupancy, .element e => s.isOccupied e
  | .unauthorisedPassing, .slot i => s.inUse i
  | .sectionDisturbed, .element e => (s.sect e).held == .disturbed
  | .flankLost, .slot i => (s.slot i).requirements.any (fun q => q.state == .lost)
  | .linkDown, .link l => s.linkDown l
  | _, _ => true

/-- The number of MAJOR records that are ACTIVE or ACKED (R156). -/
def State.majorCount (s : State) : Nat :=
  (s.su.faults.entries.filter (fun p => p.2.kind.cls == .major && p.2.state != .cleared)).length

/-- The cause of a fault of this class is kept by its block (R163). -/
def State.causeOfClass (s : State) (c : FaultClass) : Bool := s.su.causes.any (fun p => p.1.cls == c)

/-- The modes in which the part is in service (R8 and others): STARTUP, RESTRICTED, NORMAL and SAFE_HOLD. -/
def Mode.inService : Mode → Bool
  | .startup | .restricted | .normal | .safeHold => true
  | _ => false

/-- ENABLE_OUT is high exactly in NORMAL and RESTRICTED (R157). -/
def Mode.enabled : Mode → Bool
  | .normal | .restricted => true
  | _ => false

end Sys2Proof.Machine
end

