-- ==== Sys2Proof/Machine/Ops.lean ====
section
/-! DEFINITION. The named writers of the state: each writes one record, marks the subject its change marks in the report
queue (R169), and notes the change for the blocks it is passed to. A record written with the value it holds changes nothing. -/

namespace Sys2Proof.Machine

/-- R169: the subject joins the tail of the report queue unless it is there. In UNCONFIGURED and CONFIGURING the device
subject alone is marked. -/
def State.mark (sub : Subject) (s : State) : State :=
  if sub ∈ s.reports then s
  else if s.su.mode.inService || sub == .device then { s with reports := s.reports ++ [sub] }
  else s

/-- A change is noted for the blocks it is passed to. -/
def State.note (w : Work) (s : State) : State := { s with work := s.work ++ [w] }

/-- A section's run-time record is written (FI). -/
def State.putSection (e : Nat) (x : SectionImage) (s : State) : State :=
  if s.sect e = x then s
  else ({ s with field := { s.field with sections := s.field.sections.put e x } }).mark (.element e)

/-- A point's detection is written (FI). -/
def State.putDetection (p : Nat) (d : Detection) (s : State) : State :=
  if s.detection p = d then s
  else (({ s with field := { s.field with points := s.field.points.put p d } }).mark (.element p)).note (.point p)

/-- A signal's run-time record is written (FI). A change of its proving is passed on (R10). -/
def State.putSignal (g : Nat) (x : SignalImage) (s : State) : State :=
  if s.signal g = x then s
  else
    let s' := ({ s with field := { s.field with signals := s.field.signals.put g x } }).mark (.element g)
    if (s.signal g).proving = x.proving then s' else s'.note (.proving g)

/-- A group's supply state is written; the device subject is marked (R11). -/
def State.putSupply (g : Nat) (x : Supply) (s : State) : State :=
  if s.supply g = x then s
  else ({ s with field := { s.field with supplies := s.field.supplies.put g x } }).mark .device

/-- The outstanding count is written; each change marks the device subject (R19). -/
def State.putOutstanding (n : Nat) (s : State) : State :=
  if s.field.outstanding = n then s
  else ({ s with field := { s.field with outstanding := n } }).mark .device

/-- A slot is written; its subject is marked (R36). A change of its state is noted, and concerns the slot's entry (R71). -/
def State.putSlot (i : Nat) (x : Slot) (s : State) : State :=
  if s.slot i = x then s
  else
    let s' := ({ s with locking := { s.locking with slots := s.locking.slots.put i x } }).mark (.slot i)
    if (s.slot i).state = x.state then s'
    else
      let s' := s'.note (.slot i)
      let s' := match s.entryOf i with
        | some g => s'.note (.signal g)
        | none => s'
      match s'.entryOf i with
      | some g => s'.note (.signal g)
      | none => s'

/-- A slot's record is changed. -/
def State.updSlot (i : Nat) (f : Slot → Slot) (s : State) : State := s.putSlot i (f (s.slot i))

/-- A slot's release record is changed. -/
def State.updRelease (i : Nat) (f : ReleaseRecord → ReleaseRecord) (s : State) : State :=
  s.updSlot i (fun x => { x with rel := f x.rel })

/-- A slot's requirement record is written (R65). -/
def State.putRequirement (i j : Nat) (q : Requirement) (s : State) : State :=
  (s.updSlot i (fun x => { x with requirements := x.requirements.set j q })).note (.requirement i)

/-- A lock record is written or removed; the element's subject is marked, and a point's change is passed on (R38). -/
def State.putLock (e : Nat) (l : Option Lock) (s : State) : State :=
  if s.lock e = l then s
  else
    let s' := ({ s with locking := { s.locking with locks := match l with
      | some x => s.locking.locks.put e x
      | none => s.locking.locks.drop e } }).mark (.element e)
    if s.isPoint e then s'.note (.lock e) else s'

/-- A signal's permission record is written; the signal's subject is marked (R56). -/
def State.putPermission (g : Nat) (p : Permission) (s : State) : State :=
  if s.permission g = p then s
  else (({ s with locking := { s.locking with permissions := s.locking.permissions.put g p } }).mark (.element g)).note (.signal g)

/-- A claim record is written or removed; the element's subject is marked, and the change is passed on (R64). -/
def State.putClaim (e : Nat) (c : Option Claim) (s : State) : State :=
  if s.claim e = c then s
  else
    (({ s with claims := match c with
      | some x => s.claims.put e x
      | none => s.claims.drop e }).mark (.element e)).note (.claim e)

/-- A throw record is written; the point's subject is marked. A change of throw state is passed to the LE and the FE (R83, R71), and
one of the order alone to the LE (R56); one of the timer or the reason alone is passed to neither. A change of a group's moving count
marks the device subject (R88), after the point's (DESIGN CHOICE, log 68). -/
def State.putThrow (p : Nat) (t : Throw) (s : State) : State :=
  if s.throwOf p = t then s
  else
    let s' := ({ s with movement := { s.movement with throws := s.movement.throws.put p t } }).mark (.element p)
    let s' :=
      if (s.throwOf p).state ≠ t.state then s'.note (.point p)
      else if (s.throwOf p).order ≠ t.order then s'.note (.order p)
      else s'
    if ((s.throwOf p).state == .moving) = (t.state == .moving) then s' else s'.mark .device

/-- A power group's record is written; the device subject is marked (R88). -/
def State.putGroup (g : Nat) (x : PowerGroup) (s : State) : State :=
  if s.powerGroup g = x then s
  else ({ s with movement := { s.movement with groups := s.movement.groups.put g x } }).mark .device

/-- A link record is written. Marks are made where a rule asks for one (R123, R79). -/
def State.putLink (l : Nat) (x : Link) (s : State) : State := { s with links := s.links.put l x }

/-- A link record is changed. -/
def State.updLink (l : Nat) (f : Link → Link) (s : State) : State := s.putLink l (f (s.link l))

/-- A boundary element record is written; its view's subject is marked, and the change is passed on (R131). -/
def State.putBoundary (e : Nat) (b : Boundary) (s : State) : State :=
  if s.boundary e = b then s
  else
    let s' := ({ s with boundaries := s.boundaries.put e b }).mark (.boundary e)
    if (s.boundary e).outgoing = b.outgoing then s'.note (.boundary e) else s'.note (.offer e)

/-- A boundary element record is changed. -/
def State.updBoundary (e : Nat) (f : Boundary → Boundary) (s : State) : State := s.putBoundary e (f (s.boundary e))

/-- The auxiliary preparation is written; each change marks the device subject (R160). -/
def State.putPreparation (p : Option Preparation) (s : State) : State :=
  if s.host.preparation = p then s
  else ({ s with host := { s.host with preparation := p } }).mark .device

/-- A step is made for each item of a list in turn, each on the state left by the one before it. -/
def State.forEach {α : Type} (l : List α) (f : α → State → State) (s : State) : State := l.foldl (fun t a => f a t) s

/-- A step made only when a condition holds. -/
def State.whenB (b : Bool) (f : State → State) (s : State) : State := if b then f s else s

/-- A timer started now for `ms` milliseconds. -/
def State.timer (s : State) (ms : Nat) : Timer := .running (s.time.plus ms)

/-- The next free choice: its value, and the state in which it has been made (log 5). -/
def State.choose (s : State) : Nat × State := (Config.choice s.choices, { s with choices := s.choices + 1 })

end Sys2Proof.Machine
end

