-- ==== Sys2Proof/Machine/Supervision.lean ====
section
/-! DEFINITION. The Supervision Unit: raising a fault, the going of a cause, the device mode with ENABLE_OUT, and the silence
timer (09_supervision_faults_and_device_modes.md, R151 to R158). -/

namespace Sys2Proof.Machine

/-- R95 (PMC's share of the entry to SAFE_HOLD): a QUEUED point, whatever the origin of its order, becomes AT_REST with
no order. -/
def State.unqueuePoint (p : Nat) (s : State) : State :=
  if (s.throwOf p).state = .queued then s.putThrow p { s.throwOf p with state := .atRest, order := none } else s

/-- R95: the queue of every group is emptied. The points are taken in increasing id order (DESIGN CHOICE, log 50). -/
def State.emptyThrowQueues (s : State) : State :=
  (s.forEach s.points State.unqueuePoint).forEach groupIds (fun g t => t.putGroup g { t.powerGroup g with queue := [] })

/-- R157: a change of mode sets ENABLE_OUT and marks the device subject in the same event, and is passed to the LE; the
entry to SAFE_HOLD empties the throw queues, marking the points after the device (DESIGN CHOICE, log 68). -/
def State.setMode (m : Mode) (s : State) : State :=
  if s.su.mode = m then s
  else
    let s := { s with su := { s.su with mode := m, enableOut := m.enabled } }
    let s := (s.mark .device).note .conditions
    if m = .safeHold then s.emptyThrowQueues else s

/-- The overflow flag is written; each change marks the device subject (R155). -/
def State.setOverflow (b : Bool) (s : State) : State :=
  if s.su.overflow = b then s
  else ({ s with su := { s.su with overflow := b } }).mark .device

/-- A fault record is written at an index, or the index emptied; its subject is marked (R151). -/
def State.putFault (i : Nat) (r : Option FaultRecord) (s : State) : State :=
  ({ s with su := { s.su with faults := match r with
    | some x => s.su.faults.put i x
    | none => s.su.faults.drop i } }).mark (.faultIndex i)

/-- The index of the record of a kind and subject, with the record (R151). -/
def State.faultOf (s : State) (k : FaultKind) (sub : Subject) : Option (Nat × FaultRecord) :=
  s.su.faults.entries.find? (fun p => p.2.kind == k && p.2.subject == sub)

/-- The lowest empty index (R151). -/
def State.emptyIndex (s : State) : Option Nat :=
  (List.range Config.faultPlaces).find? (fun i => (s.su.faults.find i).isNone)

/-- R153: what the going of a cause does to the fault list. -/
def State.clearRecord (k : FaultKind) (sub : Subject) (s : State) : State :=
  match s.faultOf k sub with
  | some (i, r) => match r.state with
    | .active => s.putFault i (some { r with state := .cleared })
    | .acked => s.putFault i none
    | .cleared => s
  | none => s

/-- R153: the owning block's cause goes, and the SU is told. -/
def State.causeGone (k : FaultKind) (sub : Subject) (s : State) : State :=
  if (k, sub) ∈ s.su.causes then
    let s := ({ s with su := { s.su with causes := s.su.causes.filter (fun c => c != (k, sub)) } }).clearRecord k sub
    if k = .hostSilent then s.note .conditions else s
  else s

/-- The causes of one subject that hold no longer go (R18, R57, R70, R97 and the table of R152). Several that go in one event are told to
the SU (R153) in the order in which they were raised (DESIGN CHOICE, log 65). -/
def State.reassess (sub : Subject) (s : State) : State :=
  s.forEach (s.su.causes.filter (fun c => c.2 == sub)) (fun c t => if t.causeHolds c.1 c.2 then t else t.causeGone c.1 c.2)

/-- R152: the record of a raise. The second component says that the list overflowed (R155). -/
def State.recordRaise (k : FaultKind) (sub : Subject) (s : State) : State × Bool :=
  match s.faultOf k sub with
  | some (i, r) => (s.putFault i (some { r with raisedAt := s.time, count := bump r.count, state := .active }), false)
  | none => match s.emptyIndex with
    | some i => (s.putFault i (some ⟨k, sub, s.time, 1, .active⟩), false)
    | none => (s.setOverflow true, true)

/-- R156: the judgement of the mode after a raise. -/
def State.judgeMode (c : FaultClass) (overflowed : Bool) (s : State) : State :=
  if c = .critical ∨ s.cfg.params.majorLimit < s.majorCount ∨ overflowed then s.setMode .safeHold
  else if c = .major ∧ s.su.mode = .normal then s.setMode .restricted
  else s

/-- R152: a raise. The owning block keeps the cause, the record is dealt with, the block tells whether the cause is present,
and the SU judges the mode, so the fault index is marked before the device (DESIGN CHOICE, log 68). -/
def State.raise (k : FaultKind) (sub : Subject) (present : Bool) (s : State) : State :=
  let s := { s with su := { s.su with causes := if (k, sub) ∈ s.su.causes then s.su.causes else s.su.causes ++ [(k, sub)] } }
  let (s, overflowed) := s.recordRaise k sub
  let s := if present then s else s.causeGone k sub
  let s := if k = .hostSilent then s.note .conditions else s
  s.judgeMode k.cls overflowed

/-- A fault of a kind and subject is raised with its cause present. -/
def State.raiseNow (k : FaultKind) (sub : Subject) (s : State) : State := s.raise k sub true

/-- R158: the silence timer starts, its limits read now. -/
def State.startSilence (s : State) : State :=
  { s with su := { s.su with silenceFirst := s.timer s.cfg.params.silence1, silenceSecond := s.timer s.cfg.params.silence2 } }

/-- R158: a good host frame. In service the timer starts again, the causes of HOST_SILENT and HOST_SILENT_LONG go where they are
present, and the LE is to evaluate every slot; in UNCONFIGURED and CONFIGURING the timer stays stopped. -/
def State.goodHostFrame (s : State) : State :=
  if s.su.mode.inService then
    ((s.startSilence.causeGone .hostSilent .device).causeGone .hostSilentLong .device).note .conditions
  else s

/-- R154: a record is acknowledged. None where there is nothing to acknowledge. -/
def State.acknowledge (i : Nat) (s : State) : Option State :=
  match s.su.faults.find i with
  | some r => match r.state with
    | .active => some (s.putFault i (some { r with state := .acked }))
    | .cleared => some (s.putFault i none)
    | .acked => none
  | none => none

end Sys2Proof.Machine
end

