-- ==== Sys2Proof/Machine/Points.lean ====
section
/-! DEFINITION. The Point Movement Controller: taking and withdrawing throw orders, the power group arbiter, throw supervision
and supply loss (05_point_movement_and_power_groups.md, R83 to R97). -/

namespace Sys2Proof.Machine

/-- The point's place in its group's queue is given up; the others keep their order (R94). -/
def State.leaveQueue (p : Nat) (s : State) : State :=
  match s.groupOf p with
  | some g => s.putGroup g { s.powerGroup g with queue := (s.powerGroup g).queue.filter (fun q => q != p) }
  | none => s

/-- The point joins the tail of its group's queue (R85). -/
def State.joinQueue (p : Nat) (s : State) : State :=
  match s.groupOf p with
  | some g => s.putGroup g { s.powerGroup g with queue := (s.powerGroup g).queue ++ [p] }
  | none => s

/-- R88: the point at the head of a group's queue starts. It becomes MOVING with its order active, and its throw timer runs
with its effective throw limit read now. The device subject is marked before the point's (DESIGN CHOICE, log 68). -/
def State.startPoint (g p : Nat) (s : State) : State :=
  (s.putGroup g { s.powerGroup g with queue := (s.powerGroup g).queue.drop 1 }).putThrow p
    { s.throwOf p with state := .moving, timer := .running (s.time.plus (s.throwLimit p)) }

/-- The head of the group's queue may start now (R88). -/
def State.mayStart (s : State) (g : Nat) : Bool := s.supply g == .on && decide (s.movingCount g < s.groupLimit g)

/-- R88: points start from the head of the queue while the group's limit and supply allow, at most `n` of them. -/
def State.arbiter (g : Nat) : Nat → State → State
  | 0, s => s
  | n + 1, s => if s.mayStart g then
      match (s.powerGroup g).queue with
      | p :: _ => State.arbiter g n (s.startPoint g p)
      | [] => s
    else s

/-- R88: the arbiter examines a group. Four starts are as many as any limit admits. -/
def State.examineGroup (g : Nat) (s : State) : State := State.arbiter g 4 s

/-- R91: with the supply not ON, the supply-loss timer stops when the moving count has fallen to 0. -/
def State.stopLossTimer (g : Nat) (s : State) : State :=
  if s.supply g ≠ .on ∧ s.movingCount g = 0 then s.putGroup g { s.powerGroup g with lossTimer := .stopped } else s

/-- A place of a point's group has become free (R88, R91). -/
def State.placeFreed (p : Nat) (s : State) : State :=
  match s.groupOf p with
  | some g => (s.stopLossTimer g).examineGroup g
  | none => s

/-- R85: the LE or the FE gives an order, origin DEMAND. -/
def State.takeOrder (p : Nat) (target : Position) (s : State) : State :=
  if s.su.mode = .safeHold then s
  else
    let t := s.throwOf p
    if s.detectedIn p target && t.order.isNone then s
    else match t.state with
    | .atRest =>
      let s := (s.putThrow p { t with state := .queued, order := some ⟨target, true⟩ }).joinQueue p
      match s.groupOf p with
      | some g => s.examineGroup g
      | none => s
    | .queued | .moving => s
    | .faulted => if s.orderedTo p target then s else s.putThrow p { t with order := some ⟨target, true⟩ }

/-- A point becomes FAULTED with a reason, keeping `order` as its held order (R90, R93, R96). The FE takes it as R75 and
R81 say. -/
def State.faultPoint (p : Nat) (reason : ThrowFault) (order : Option Order) (s : State) : State :=
  (s.putThrow p ⟨.faulted, order, .stopped, some reason⟩).note (.faulted p)

/-- R97: a point leaves FAULTED for AT_REST with no order; causes that stood on it go (R18, R93). -/
def State.leaveFaulted (p : Nat) (s : State) : State :=
  let s := (s.putThrow p {}).reassess (.element p)
  match s.groupOf p with
  | some g => s.reassess (.group g)
  | none => s

/-- R89: a MOVING or QUEUED point whose detection has become its target completes. -/
def State.completeThrow (p : Nat) (s : State) : State :=
  match (s.throwOf p).state with
  | .moving => (s.putThrow p {}).placeFreed p
  | .queued => (s.putThrow p {}).leaveQueue p
  | _ => s

/-- R94 and R97: a lock or claim of the point has gone. A waiting DEMAND order without a cause is removed, a FAULTED point's
held one too, and a FAULTED point in position that nothing holds any longer leaves FAULTED. -/
def State.examineOrder (p : Nat) (s : State) : State :=
  let t := s.throwOf p
  let stale : Bool := match t.order with
    | some o => o.demand && !s.requires p o.target
    | none => false
  let s := match t.state with
    | .queued => if stale then (s.putThrow p { t with state := .atRest, order := none }).leaveQueue p else s
    | .faulted => if stale then s.putThrow p { t with order := none } else s
    | _ => s
  if s.isFaulted p && !s.isHeld p && s.atRest p then s.leaveFaulted p else s

/-- R96: a point that holds a lock or claim is reported LOST. -/
def State.loseDetection (p : Nat) (s : State) : State :=
  let t := s.throwOf p
  match t.state with
  | .atRest => s.faultPoint p .detectionLost ((s.requiredPosition p).map (fun pos => ⟨pos, true⟩))
  | .queued => (s.leaveQueue p).faultPoint p .detectionLost t.order
  | .moving => (s.faultPoint p .detectionLost t.order).placeFreed p
  | .faulted =>
    let s := s.putThrow p { t with reason := some .detectionLost }
    match s.groupOf p with
    | some g => s.reassess (.group g)
    | none => s

/-- What the PMC makes of a change of a point's detection (R89, R96, R97). -/
def State.takeDetection (p : Nat) (s : State) : State :=
  let t := s.throwOf p
  let reached : Bool := match t.order with
    | some o => s.detectedIn p o.target
    | none => false
  if s.detection p == .lost && s.isHeld p then s.loseDetection p
  else if (t.state == .moving || t.state == .queued) && reached then s.completeThrow p
  else if t.state == .faulted && s.atRest p && !s.isHeld p then s.leaveFaulted p
  else s

/-- R91: a MOVING point's running timer pauses with the time to its deadline. -/
def State.pausePoint (p : Nat) (s : State) : State :=
  match (s.throwOf p).state, (s.throwOf p).timer with
  | .moving, .running d => s.putThrow p { s.throwOf p with timer := .paused (Time.remaining s.time d) }
  | _, _ => s

/-- R92: a paused timer runs again from now. -/
def State.resumePoint (p : Nat) (s : State) : State :=
  match (s.throwOf p).timer with
  | .paused r => s.putThrow p { s.throwOf p with timer := .running (s.time.plus r) }
  | _ => s

/-- R91: a group's supply has changed from ON to OFF. The points are taken in increasing id order (DESIGN CHOICE, log 50). -/
def State.supplyLost (g : Nat) (s : State) : State :=
  let s := s.forEach (s.pointsOf g) State.pausePoint
  if 0 < s.movingCount g then s.putGroup g { s.powerGroup g with lossTimer := s.timer s.cfg.params.supplyLoss } else s

/-- R92: a group's supply has changed to ON. The points are taken in increasing id order (DESIGN CHOICE, log 50). -/
def State.supplyReturned (g : Nat) (s : State) : State :=
  let s := s.forEach (s.pointsOf g) State.resumePoint
  (s.putGroup g { s.powerGroup g with lossTimer := .stopped }).examineGroup g

/-- R90: the throw timer of a MOVING point expires: the point is FAULTED, the fault is raised, and the arbiter then examines
the group. -/
def State.throwTimeout (p : Nat) (s : State) : State :=
  ((s.faultPoint p .throwTimeout (s.throwOf p).order).raiseNow .pointThrowTimeout (.element p)).placeFreed p

/-- R93: one MOVING point of a group whose supply-loss timer has expired. -/
def State.supplyFaultPoint (p : Nat) (s : State) : State :=
  if (s.throwOf p).state = .moving then s.faultPoint p .supplyTimeout (s.throwOf p).order else s

/-- R93: a group's supply-loss timer expires. The points are taken in increasing id order (DESIGN CHOICE, log 50). -/
def State.supplyTimeout (g : Nat) (s : State) : State :=
  let s := s.putGroup g { s.powerGroup g with lossTimer := .stopped }
  (s.forEach (s.pointsOf g) State.supplyFaultPoint).raiseNow .supplyTimeout (.group g)

/-- R87: a POINT_THROW that passed every check. The second component says that an order was queued (ACCEPTED) rather than that
the point lies there already (DONE). -/
def State.throwOnRequest (p : Nat) (target : Position) (s : State) : State × Bool :=
  let s := if s.isFaulted p then s.leaveFaulted p else s
  if s.detectedIn p target then (s, false)
  else
    let s := (s.putThrow p { s.throwOf p with state := .queued, order := some ⟨target, s.isHeld p⟩ }).joinQueue p
    (match s.groupOf p with
      | some g => s.examineGroup g
      | none => s, true)

/-- R95: on leaving SAFE_HOLD, an order for a point that holds a FIRM lock, is not detected in its position, is not FAULTED and
has no order to it. -/
def State.reorderLocked (p : Nat) (s : State) : State :=
  match s.lock p with
  | some l => match l.required with
    | some pos => if l.firm && !s.detectedIn p pos && !s.isFaulted p && !s.orderedTo p pos then s.takeOrder p pos else s
    | none => s
  | none => s

end Sys2Proof.Machine
end

