-- ==== Sys2Proof/Machine/Ports.lean ====
section
/-! DEFINITION. The Boundary Link Ports: the probe pattern, placing and sending telegrams, the entries to DOWN, PROVING and UP,
receiving, and link health (07_boundary_links.md, R117 to R130; the STATE content of R148). -/

namespace Sys2Proof.Machine

/-! ### The probe pattern (R124) -/

/-- The value the probe generator and checker are loaded with (R124). -/
def probeLoad : BitVec 16 := 0xACE1

/-- One step of the generator: the register with the feedback bit (positions 0, 2, 3 and 5) entered at position 15. The
bit shifted out is the one in position 0 (R124). -/
def probeStep (r : BitVec 16) : BitVec 16 :=
  let f := (r.getLsbD 0 ^^ r.getLsbD 2) ^^ (r.getLsbD 3 ^^ r.getLsbD 5)
  (r >>> 1) ||| (if f then 0x8000 else 0)

/-- `n` steps of the generator. -/
def probeSteps : Nat → BitVec 16 → BitVec 16
  | 0, r => r
  | n + 1, r => probeSteps n (probeStep r)

/-- The byte of the next `n` bits shifted out, the first one most significant, after the bits in `acc`. -/
def probeBits : Nat → BitVec 16 → Nat → Nat
  | 0, _, acc => acc
  | n + 1, r, acc => probeBits n (probeStep r) (acc * 2 + (r.getLsbD 0).toNat)

/-- The next `n` pattern bytes (R124). -/
def probeBytes : Nat → BitVec 16 → List Byte
  | 0, _ => []
  | n + 1, r => BitVec.ofNat 8 (probeBits 8 r 0) :: probeBytes n (probeSteps 8 r)

/-- The 16 pattern bytes that begin at a register value. -/
def probePattern (r : BitVec 16) : List Byte := probeBytes 16 r

/-- The register at the start of probe number `n`'s pattern (R124). -/
def probeStart (n : Nat) : BitVec 16 := probeSteps (128 * n) probeLoad

/-- The number of places in which two patterns differ (R125). -/
def mismatches (a b : List Byte) : Nat := ((a.zip b).filter (fun p => p.1 != p.2)).length

/-! ### The STATE telegram's content (R148) -/

/-- The code of a direction (R178). -/
def Direction.code : Direction → Nat
  | .unknown => 1
  | .outbound => 2
  | .inbound => 3
  | .asking => 4

/-- The code of a mode (R178). -/
def Mode.code : Mode → Nat
  | .unconfigured => 0
  | .configuring => 1
  | .startup => 2
  | .restricted => 3
  | .normal => 4
  | .safeHold => 5

/-- The direction claim of a boundary element (R148). -/
def State.directionClaim (s : State) (e : Nat) : Nat := match s.roleOf e with
  | some .both => (s.boundary e).direction.code
  | some .exit => Direction.outbound.code
  | some .entry => Direction.inbound.code
  | none => Direction.unknown.code

/-- The asks listed for a link: references of remote requirements ASKED and sent, or HELD (R148, R72), in slot id and requirement index
order (DESIGN CHOICE, log 56). -/
def State.askList (s : State) (l : Nat) : List Nat :=
  (s.allRequirements.filter (fun p => s.askLink p.1 p.2 == some l &&
    !(match s.requirement p.1 p.2 with
      | some q => q.deferred
      | none => false))).map (fun p => askReference p.1 p.2)

/-- The entry slot of an element is PASSING with has_been_opened set (R148). -/
def State.showsOccupiedBeyond (s : State) (e : Nat) : Bool := match (s.boundary e).entrySlot with
  | some i => (s.slot i).state == .passing && (s.slot i).hasBeenOpened
  | none => false

/-- The STATE entry of a boundary element (R148). -/
def State.stateEntry (s : State) (e : Nat) : StateEntry where
  element := s.remoteOf e
  claim := s.directionClaim e
  offerPresent := match (s.boundary e).outgoing with
    | some o => !o.deferred
    | none => false
  acceptanceGiven := match (s.boundary e).incoming with
    | some o => o.accepted
    | none => false
  occupiedBeyond := s.showsOccupiedBeyond e

/-- The STATE telegram placed on a link (R148). -/
def State.stateBody (s : State) (l : Nat) : StateBody where
  mode := s.su.mode.code
  asks := s.askList l
  given := (s.link l).given.map GivenClaim.reference
  entries := (s.boundariesOn l).map s.stateEntry

/-! ### Sending (R120, R121) -/

/-- With no telegram leaving, the head of the transmit queue begins to leave, with the transmit sequence written into it;
the sequence then advances (R120). -/
def Link.beginSending (k : Link) : Link :=
  match k.sending, k.queue with
  | none, t :: rest => { k with sending := some (k.txSeq, t), queue := rest, txSeq := k.txSeq + 1 }
  | _, _ => k

/-- A telegram joins the transmit queue, and begins to leave if the line is idle. -/
def Link.append (t : Telegram) (k : Link) : Link := { k with queue := k.queue ++ [t] }.beginSending

/-- The next PROBE is placed, and the outgoing probe number and the generator advance; from 255 the number returns to 0 and the
generator is loaded again (R121, R124). -/
def Link.appendProbe (k : Link) : Link :=
  { k.append (.probe k.outProbe (probePattern k.generator)) with
    outProbe := k.outProbe + 1
    generator := if k.outProbe = 255 then probeLoad else probeSteps 128 k.generator }

/-- The link record at an entry to PROVING (R128, step 5), with PROBE 0 placed and both timers started. -/
def Link.proving (now : Time) (p : LinkParams) (k : Link) : Link :=
  { { k with
        state := .proving
        lastSeq := none
        cleanRun := 0
        goodRun := 0
        badRun := 0
        outProbe := 0
        generator := probeLoad
        expProbe := 0
        checker := probeLoad
        missWatch := .stopped
        freshUp := false }.appendProbe with
    sendTimer := .running (now.plus p.period)
    losTimer := .running (now.plus p.los) }

/-- The link enters PROVING. -/
def State.enterProving (l : Nat) (s : State) : State := s.updLink l (Link.proving s.time (s.linkParams l))

/-- R128: an entry to DOWN, with the port's share of it: the queue emptied, LINK_DOWN raised, the subject marked, and PROVING
entered. The entry is noted for the HC and the FE, which take it as an event of their own. -/
def State.goDown (l : Nat) (s : State) : State :=
  let s := s.updLink l (fun k => { k with
    state := .down
    queue := []
    sendTimer := .stopped
    missWatch := .stopped
    losTimer := .stopped
    goodRun := 0
    badRun := 0
    neighbourMode := none })
  let s := (s.raiseNow .linkDown (.link l)).mark (.link l)
  (s.note (.linkDown l)).enterProving l

/-- The transmit queue of a port is full (R120). -/
def State.queueFull (s : State) (l : Nat) : Bool := decide (Config.transmitPlaces ≤ (s.link l).queue.length)

/-- R120: a telegram is placed; in a full queue the link enters DOWN instead. -/
def State.place (l : Nat) (t : Telegram) (s : State) : State :=
  if s.queueFull l then s.goDown l else s.updLink l (Link.append t)

/-- R120, R132: a telegram handed by the HC is placed in UP and SUSPECT, and discarded in every other state. -/
def State.hand (l : Nat) (t : Telegram) (s : State) : State := if s.linkDown l then s else s.place l t

/-- A PROBE is placed (R121). -/
def State.placeProbe (l : Nat) (s : State) : State :=
  if s.queueFull l then s.goDown l else s.updLink l Link.appendProbe

/-- A STATE is placed, with its content fixed now (R120, R148). -/
def State.placeState (l : Nat) (s : State) : State := s.place l (.state (s.stateBody l))

/-- R120: a telegram has finished leaving, and the next begins. -/
def State.telegramLeft (l : Nat) (s : State) : State :=
  s.updLink l (fun k => { k with sending := none }.beginSending)

/-- The miss watch of R125 and R126: the period plus half the period, rounded down. -/
def State.missTimer (s : State) (l : Nat) : Timer := s.timer ((s.linkParams l).period + (s.linkParams l).period / 2)

/-- R125: the clean run has reached the in-lock count and the link enters UP: the cause of LINK_DOWN goes, the link's subject is marked,
and the entry is noted for the HC and the FE, in the order of the rule's sentences (DEDUCED, log 69). It places a STATE at once (R121). -/
def State.enterUp (l : Nat) (s : State) : State :=
  let s := s.updLink l (fun k => { k with
    state := .up
    cleanRun := 0
    goodRun := 0
    badRun := 0
    missWatch := s.missTimer l
    sendTimer := s.timer (s.linkParams l).period
    freshUp := true })
  (((s.reassess (.link l)).mark (.link l)).note (.linkUp l)).placeState l

/-! ### Receiving (R122 to R127) -/

/-- What a good telegram is to the port (R125, R126). -/
inductive Arrival where
  | probe (number : Byte) (pattern : List Byte)
  | state
  | other
  deriving DecidableEq, Repr

/-- The clean run after a clean telegram: 1 when a gap has just been counted for it (R125). -/
def Link.cleaner (gap : Bool) (k : Link) : Link := { k with cleanRun := if gap then 1 else k.cleanRun + 1 }

/-- R125: the checker is brought to the start of the received number's pattern. -/
def Link.checkerAt (k : Link) (number : Byte) : BitVec 16 :=
  if k.expProbe.toNat ≤ number.toNat then probeSteps (128 * (number.toNat - k.expProbe.toNat)) k.checker
  else probeStart number.toNat

/-- R125: a PROBE is checked in PROVING. -/
def Link.checkProbe (gap : Bool) (number : Byte) (pattern : List Byte) (k : Link) : Link :=
  let at0 := k.checkerAt number
  let wrong := mismatches pattern (probePattern at0)
  let k := { k with
    counters := { k.counters with mismatch := bumpBy k.counters.mismatch wrong }
    expProbe := number + 1
    checker := if number = 255 then probeLoad else probeSteps 128 at0 }
  if wrong = 0 then k.cleaner gap else { k with cleanRun := 0 }

/-- R125: what a good telegram does to the clean run. -/
def Link.provingGood (gap : Bool) (a : Arrival) (k : Link) : Link := match a with
  | .probe number pattern => k.checkProbe gap number pattern
  | .state => k.cleaner gap
  | .other => if gap then { k with cleanRun := 0 } else k

/-- R122, R123, R127: a good telegram is counted, a gap too, its sequence is recorded, and the LOS timer starts again. -/
def Link.countGood (now : Time) (p : LinkParams) (seq : Byte) (gap : Bool) (k : Link) : Link :=
  { k with
    counters := { k.counters with good := bump k.counters.good, gaps := if gap then bump k.counters.gaps else k.counters.gaps }
    lastSeq := some seq
    losTimer := .running (now.plus p.los) }

/-- R123: the sequence is not the last received one plus one. -/
def Link.isGap (k : Link) (seq : Byte) : Bool := match k.lastSeq with
  | some last => seq != last + 1
  | none => false

/-- R126: a good telegram other than PROBE in UP or SUSPECT. The telegram that brings SUSPECT to UP is itself the one after which no good
telegram has yet been taken. -/
def State.healthGood (l : Nat) (s : State) : State :=
  let k := { s.link l with missWatch := s.missTimer l, freshUp := false }
  if k.state = .suspect then
    if k.goodRun + 1 = 2 then
      ((s.putLink l { k with state := .up, goodRun := 0, badRun := 0, freshUp := true }).mark (.link l)).note (.linkUp l)
    else s.putLink l { k with goodRun := k.goodRun + 1, badRun := 0 }
  else s.putLink l k

/-- R122 to R129: a good telegram arrives. The second component says that it is passed to the HC. A DISABLED port takes no
notice of the line (R119). -/
def State.receive (l : Nat) (seq : Byte) (a : Arrival) (s : State) : State × Bool :=
  let k := s.link l
  let gap := k.isGap seq
  let counted := s.updLink l (Link.countGood s.time (s.linkParams l) seq gap)
  match k.state with
  | .disabled | .down => (s, false)
  | .proving =>
    let s := counted.updLink l (Link.provingGood gap a)
    (if (s.linkParams l).inLock ≤ (s.link l).cleanRun then s.enterUp l else s, false)
  | .up | .suspect => match a with
    | .probe _ _ =>
      if k.state = .up ∧ k.freshUp then
        (counted.updLink l (fun k => { k with missWatch := s.missTimer l, freshUp := false }), false)
      else (counted.goDown l, false)
    | _ => (counted.healthGood l, true)

/-- R126: what a bad telegram or a miss does to link health. -/
def State.healthBad (l : Nat) (s : State) : State :=
  let k := s.link l
  match k.state with
  | .proving => s.putLink l { k with cleanRun := 0 }
  | .up => (s.putLink l { k with state := .suspect, badRun := 1, goodRun := 0 }).mark (.link l)
  | .suspect =>
    if (s.linkParams l).outLock ≤ k.badRun + 1 then s.goDown l
    else s.putLink l { k with badRun := k.badRun + 1, goodRun := 0 }
  | _ => s

/-- The counter a receive error raises (R122). -/
def LinkCounters.error (c : LinkCounters) : ReceiveError → LinkCounters
  | .crc => { c with crc := bump c.crc }
  | .length => { c with length := bump c.length }
  | .byte | .hunting => { c with byte := bump c.byte }

/-- R122: a bad telegram is counted and acts on link health; a byte error while hunting is counted only. A DISABLED port
takes no notice (R119). -/
def State.badTelegram (l : Nat) (e : ReceiveError) (s : State) : State :=
  if (s.link l).state = .disabled then s
  else
    let s := s.updLink l (fun k => { k with counters := k.counters.error e })
    if e = .hunting then s else s.healthBad l

/-- R122: a telegram of unknown kind is counted and its sequence recorded. -/
def State.unknownTelegram (l : Nat) (seq : Byte) (s : State) : State :=
  if (s.link l).state = .disabled then s
  else s.updLink l (fun k => { k with counters := { k.counters with unknown := bump k.counters.unknown }, lastSeq := some seq })

/-- R121: the send timer expires: the next PROBE in PROVING, a STATE in UP or SUSPECT, and the timer starts again. -/
def State.sendTimerExpired (l : Nat) (s : State) : State :=
  let again := s.updLink l (fun k => { k with sendTimer := s.timer (s.linkParams l).period })
  match (s.link l).state with
  | .proving => again.placeProbe l
  | .up | .suspect => again.placeState l
  | _ => s.updLink l (fun k => { k with sendTimer := .stopped })

/-- R126: the miss watch expires: it starts again and a miss is judged. -/
def State.missed (l : Nat) (s : State) : State :=
  match (s.link l).state with
  | .up | .suspect => (s.updLink l (fun k => { k with missWatch := s.missTimer l })).healthBad l
  | _ => s.updLink l (fun k => { k with missWatch := .stopped })

/-- R127: the LOS timer expires. -/
def State.signalLost (l : Nat) (s : State) : State :=
  match (s.link l).state with
  | .proving | .up | .suspect => s.goDown l
  | _ => s.updLink l (fun k => { k with losTimer := .stopped })

/-- R123: the seven counters of a link are set to 0. -/
def State.clearLinkCounters (l : Nat) (s : State) : State :=
  (s.updLink l (fun k => { k with counters := {} })).mark (.link l)

end Sys2Proof.Machine
end

