-- ==== Sys2Proof/Machine/Flank.lean ====
section
/-! DEFINITION. The Flank Engine, lower half: claims and their counts, when a candidate can be had, asks and their retired
references, and the release of a requirement (04_flank_protection.md, R64 to R68, R72, R73, R77, R78). -/

namespace Sys2Proof.Machine

/-! ### Claims (R64) -/

/-- R64: a claim is placed on an element, in a state; R18: the FI reassesses the point. -/
def State.placeClaim (e : Nat) (q : Required) (s : State) : State :=
  (s.putClaim e (some (match s.claim e with
    | some c => { c with count := c.count + 1 }
    | none => ⟨q, 1⟩))).reassess (.element e)

/-- R64: a claim is removed from an element. The PMC examines a point's order (R94), and the FI reassesses it (R18). -/
def State.removeClaim (e : Nat) (s : State) : State :=
  let s := s.putClaim e (match s.claim e with
    | some c => if c.count ≤ 1 then none else some { c with count := c.count - 1 }
    | none => none)
  (if s.isPoint e then s.examineOrder e else s).reassess (.element e)

/-! ### When a candidate can be had (R66 to R68) -/

/-- The claim count that counts against a candidate: less the examining requirement's own claim (R66). -/
def State.countAgainst (s : State) (e : Nat) (own : Bool) : Nat := if own then s.claimCount e - 1 else s.claimCount e

/-- R66: a point is available in a position. `own` says that the examining requirement itself holds a claim on it. -/
def State.pointAvailable (s : State) (p : Nat) (pos : Position) (own : Bool) : Bool :=
  !s.isFaulted p
  && !(s.lockPosition p == some pos.other)
  && (s.countAgainst p own == 0 || s.claimState p == some pos.required)
  && decide (s.countAgainst p own < Config.claimLimit)
  && !s.orderedTo p pos.other
  && (s.detectedIn p pos || (s.isClear (s.containing p) && !s.isLocked p))

/-- R67: a signal is available. -/
def State.signalAvailable (s : State) (g : Nat) (own : Bool) : Bool :=
  s.permission g == .stop
  && !(slotIds.any (fun i => (s.slot i).state == .opened && s.entryOf i == some g))
  && decide (s.countAgainst g own < Config.claimLimit)

/-- R68: a remote candidate is askable for a slot; `more` counts asks chosen earlier in the same trial (R44). -/
def State.askable (s : State) (i l more : Nat) : Bool :=
  s.linkUp l && decide (s.askCount l + more < Config.askPlaces) && (s.slot i).state != .timedRelease

/-! ### Requirement records (R65) -/

/-- A requirement record is written. The cause of FLANK_LOST is reassessed when the record leaves LOST (R70), and room for
asks on a link is noted when their number falls below 16 (R71). That the ask which a requirement itself gives up makes room for that same
requirement, once it is LOST, is the model's choice (DESIGN CHOICE, log 60). -/
def State.setRequirement (i j : Nat) (q : Requirement) (s : State) : State :=
  let before := s.requirement i j
  let s' := s.putRequirement i j q
  let s' := match s.askLink i j with
    | some l => if Config.askPlaces ≤ s.askCount l ∧ s'.askCount l < Config.askPlaces then s'.note (.askRoom l) else s'
    | none => s'
  match before with
  | some b => if b.state = .lost then s'.reassess (.slot i) else s'
  | none => s'

/-- R73: a reference enters a link's retired set, which holds none twice. -/
def State.retireAsk (l r : Nat) (s : State) : State :=
  s.updLink l (fun k => if r ∈ k.retiredAsks then k else { k with retiredAsks := k.retiredAsks ++ [r] })

/-- R73, R74, R78: a remote requirement that is ASKED or HELD gives up its ask: FLANK_RELEASE is handed, and the reference of a
sent ask is retired. -/
def State.giveUpAsk (i j l : Nat) (s : State) : State :=
  let deferred := match s.requirement i j with
    | some q => q.deferred
    | none => false
  let s := s.hand l (.flankRelease (askReference i j))
  if deferred then s else s.retireAsk l (askReference i j)

/-- The code of a required state (R178). -/
def Required.code : Required → Nat
  | .normal => 1
  | .reverse => 2
  | .stop => 3

/-- The state with a code (R178). -/
def Required.ofCode (c : Nat) : Option Required :=
  if c = 1 then some .normal else if c = 2 then some .reverse else if c = 3 then some .stop else none

/-- R72: the ask of a requirement is sent, and its answer timer starts; or it is deferred while its reference is retired. -/
def State.sendAsk (i j k l element : Nat) (q : Required) (s : State) : State :=
  if askReference i j ∈ (s.link l).retiredAsks then
    s.setRequirement i j { state := .asked, candidate := some k, deferred := true }
  else
    (s.setRequirement i j { state := .asked, candidate := some k, answer := s.timer (s.linkParams l).answer }).hand l
      (.flankAsk (askReference i j) element q.code)

/-- R72: the deferred asks of a link whose references have left the retired set are sent, while the link is UP. Several of them leave in
slot id and requirement index order (DESIGN CHOICE, log 56). -/
def State.sendDeferredAsks (l : Nat) (s : State) : State :=
  s.forEach s.allRequirements (fun p t =>
    match t.requirement p.1 p.2, t.chosen p.1 p.2 with
    | some q, some (.remote m element want) =>
      if q.state = .asked ∧ q.deferred ∧ m = l ∧ t.linkUp l ∧ askReference p.1 p.2 ∉ (t.link l).retiredAsks then
        t.sendAsk p.1 p.2 (q.candidate.getD 0) l element want
      else t
    | _, _ => t)

/-- R77: the throw order for a claimed point, when it is not detected in the claimed position, has no order to it, is not
FAULTED, and the mode is not SAFE_HOLD. -/
def State.orderForClaim (p : Nat) (pos : Position) (s : State) : State :=
  if s.detectedIn p pos || s.orderedTo p pos || s.isFaulted p || s.su.mode == .safeHold then s else s.takeOrder p pos

/-- R78: a requirement is released: a claim is removed, an ask given up, and the record becomes RELEASED. -/
def State.releaseRequirement (i j : Nat) (s : State) : State :=
  match s.requirement i j with
  | none => s
  | some q =>
    let s' := if q.state = .held ∨ q.state = .asked then
        match s.chosen i j with
        | some (.localPoint p _) => s.removeClaim p
        | some (.localSignal g) => s.removeClaim g
        | some (.remote l _ _) => s.giveUpAsk i j l
        | none => s
      else s
    if q.state = .released then s' else s'.setRequirement i j { state := .released }

/-- The point of a committed requirement's local candidate, with the position it is held in (R77). -/
def State.firmFlankPoint (s : State) (p : Nat) : Bool :=
  s.allRequirements.any (fun x => match s.requirement x.1 x.2, s.chosen x.1 x.2 with
    | some q, some (.localPoint c _) => q.state == .held && q.firm && c == p
    | _, _ => false)

/-- A given claim stands on an element. -/
def State.givenOn (s : State) (e : Nat) : Bool := linkIds.any (fun l => (s.link l).given.any (fun c => c.element == e))

/-- R77: on leaving SAFE_HOLD, the order for a point with a FIRM or given claim. -/
def State.reorderClaimed (p : Nat) (s : State) : State :=
  match s.claimPosition p with
  | some pos => if s.firmFlankPoint p || s.givenOn p then s.orderForClaim p pos else s
  | none => s

/-! ### Given claims (R79, R82) -/

/-- R82: a given claim is released: the record goes, the element's count falls by one. No telegram is sent. The
link is marked before the element (DESIGN CHOICE, log 68). -/
def State.releaseGiven (l r : Nat) (s : State) : State :=
  match (s.link l).given.find? (fun c => c.reference == r) with
  | some c => ((s.updLink l (fun k => { k with given := k.given.filter (fun x => x.reference != r) })).mark (.link l)).removeClaim c.element
  | none => s

end Sys2Proof.Machine
end

