-- ==== Sys2Proof/Machine/Handover.lean ====
section
/-! DEFINITION. The Handover Controller, lower half: outgoing offers and their retired references, acceptance, and what an
entry or exit slot leaves in its boundary element's record (08_handover_to_neighbouring_interlockings.md, R131 to R143). -/

namespace Sys2Proof.Machine

/-- The code of a route class (R178). -/
def RouteClass.code : RouteClass → Nat
  | .main => 1
  | .shunt => 2
  | .entry => 3

/-- R43, R138: a boundary element holds an offer. -/
def State.holdsOffer (s : State) (e : Nat) : Bool := (s.boundary e).outgoing.isSome || (s.boundary e).incoming.isSome

/-- R134: a pair of reference and element enters the link's retired offer set, no reference twice. -/
def State.retireOffer (l r e : Nat) (s : State) : State :=
  s.updLink l (fun k => if k.retiredOffers.any (fun p => p.1 == r) then k
    else { k with retiredOffers := k.retiredOffers ++ [(r, e)] })

/-- The outgoing offer record of an element is removed. An offer still OFFERED and sent retires its reference, unless the
neighbour's REFUSE removes it (R134). The slot's offer state changes with it (R36), and the slot is marked after the boundary view
(DESIGN CHOICE, log 68). -/
def State.removeOutgoing (e : Nat) (byRefuse : Bool) (s : State) : State :=
  match (s.boundary e).outgoing with
  | some o =>
    let s := match s.linkOf e with
      | some l => if o.accepted || o.deferred || byRefuse then s else s.retireOffer l o.slot e
      | none => s
    (s.updBoundary e (fun b => { b with outgoing := none })).mark (.slot o.slot)
  | none => s

/-- A telegram is handed for a boundary element, on its link. -/
def State.handFor (e : Nat) (t : Telegram) (s : State) : State := match s.linkOf e with
  | some l => s.hand l t
  | none => s

/-- WITHDRAW is sent for an element's outgoing offer, and the record is removed (R52, R62). -/
def State.withdrawOutgoing (e : Nat) (s : State) : State := match (s.boundary e).outgoing with
  | some o => (s.handFor e (.withdraw o.slot)).removeOutgoing e false
  | none => s

/-- R133: the OFFER of a slot is sent at its exit boundary element, and its answer timer starts; or the offer is deferred while
its reference is retired. The boundary view is marked before the slot (DESIGN CHOICE, log 68). -/
def State.sendOffer (e i : Nat) (cls : RouteClass) (s : State) : State :=
  match s.linkOf e with
  | none => s
  | some l =>
    if (s.link l).retiredOffers.any (fun p => p.1 == i) then
      let o : OutgoingOffer := { slot := i, deferred := true }
      (s.updBoundary e (fun b => { b with outgoing := some o })).mark (.slot i)
    else
      let o : OutgoingOffer := { slot := i, sentAt := some s.time, answer := s.timer (s.linkParams l).answer }
      ((s.updBoundary e (fun b => { b with outgoing := some o })).mark (.slot i)).hand l (.offer (s.remoteOf e) i cls.code)

/-- R133: the deferred offers of a link whose references have left the retired set are sent, while the link is UP. Several of them leave in
increasing element id order (DESIGN CHOICE, log 56). -/
def State.sendDeferredOffers (l : Nat) (s : State) : State :=
  s.forEach (s.boundariesOn l) (fun e t => match (t.boundary e).outgoing with
    | some o =>
      if o.deferred && t.linkUp l && !((t.link l).retiredOffers.any (fun p => p.1 == o.slot)) then
        t.sendOffer e o.slot (((t.routeOf o.slot).map RouteDef.cls).getD .main)
      else t
    | none => t)

/-- R139: an incoming offer that is not accepted is accepted when the element's entry slot is OPEN: ACCEPT is handed, the
accepted flag set, and the slot's has_been_opened set (R59). The boundary view is marked before the slot (DESIGN CHOICE, log 68). -/
def State.tryAccept (e : Nat) (s : State) : State :=
  match (s.boundary e).incoming, (s.boundary e).entrySlot with
  | some o, some i =>
    if !o.accepted && (s.slot i).state == .opened then
      (((s.updBoundary e (fun b => { b with incoming := some { o with accepted := true } })).updSlot i
        (fun x => { x with hasBeenOpened := true })).mark (.slot i)).handFor e (.accept o.reference)
    else s
  | _, _ => s

/-- The HC's share of a slot becoming FREE: the entry slot and the awaited reference of its entry boundary element, and released
pending of its exit boundary element, are cleared (R131, R137, R141). -/
def State.forgetSlot (i : Nat) (entry exit : Option Nat) (s : State) : State :=
  let s := match entry with
    | some e => s.updBoundary e (fun b => if b.entrySlot = some i then { b with entrySlot := none, awaited := none } else b)
    | none => s
  match exit with
  | some e => s.updBoundary e (fun b => if b.releasedPending = some i then { b with releasedPending := none } else b)
  | none => s

/-- R142: occupied_beyond is cleared when the exit slot leaves PASSING. -/
def State.clearBeyond (exit : Option Nat) (s : State) : State := match exit with
  | some e => s.updBoundary e (fun b => { b with occupiedBeyond := false })
  | none => s

end Sys2Proof.Machine
end

