-- ==== Sys2Proof/Machine/Locking.lean ====
section
/-! DEFINITION. The Locking Engine: locks, permissions, dropping and releasing slots, the opening conditions, commit, opening
and withdrawal (03_route_setting_and_locking.md, R35 to R60 and R62). -/

namespace Sys2Proof.Machine

/-! ### Locks (R37, R38) -/

/-- R38: a lock is placed; the FI reassesses a point (R18). -/
def State.placeLock (e i : Nat) (kind : LockKind) (pos : Option Position) (s : State) : State :=
  (s.putLock e (some ⟨i, kind, false, pos⟩)).reassess (.element e)

/-- R38: a lock is removed. The PMC examines a point's order (R94), and the FI reassesses it (R18). -/
def State.removeLock (e : Nat) (s : State) : State :=
  let s := s.putLock e none
  (if s.isPoint e then s.examineOrder e else s).reassess (.element e)

/-- A lock is removed if the slot holds it. -/
def State.unlock (i e : Nat) (s : State) : State := match s.lock e with
  | some l => if l.holder = i then s.removeLock e else s
  | none => s

/-- A slot's lock is made firm (R49). -/
def State.firmLock (i e : Nat) (s : State) : State := match s.lock e with
  | some l => if l.holder = i then s.putLock e (some { l with firm := true }) else s
  | none => s

/-- Every element a route locks: path sections, path points, overlap sections, overlap points (R41). That a slot's locks are made firm at
commit, and removed when it is dropped or released, in this order is the model's choice (DESIGN CHOICE, log 59). -/
def RouteDef.lockOrder (r : RouteDef) : List Nat :=
  r.path ++ r.points.map PointReq.point ++ r.overlapSections ++ r.overlapPoints.map PointReq.point

/-! ### Permissions (R16, R56) -/

/-- A signal's permission changes. The LE tells the FI: from PROCEED to STOP the withdrawal supervision starts with the
effective proving limit; at PROCEED it stops (R16). -/
def State.setPermission (g : Nat) (p : Permission) (s : State) : State :=
  if s.permission g = p then s
  else
    let t : Timer := match p with
      | .stop => s.timer (s.provingLimit g)
      | .proceed => .stopped
    let s := s.putPermission g p
    (s.putSignal g { s.signal g with withdrawal := t }).reassess (.element g)

/-- The permission of a slot is withdrawn if it is OPEN, and its proving timer stopped (R58, R62, R63). The signal is marked before the
slot (DESIGN CHOICE, log 68). -/
def State.withdrawPermission (i : Nat) (s : State) : State :=
  if (s.slot i).state = .opened then
    let s' := match s.entrySignal i with
      | some g => s.setPermission g .stop
      | none => s
    s'.updSlot i (fun x => { x with provingTimer := .stopped })
  else s

/-! ### Leaving use (R52, R62) -/

/-- R103: a section's passage mark is disarmed. -/
def State.disarm (e : Nat) (s : State) : State := s.putSection e { s.sect e with mark := .disarmed }

/-- R103: every passage mark of a slot's path that is not yet released is disarmed. -/
def State.disarmAll (i : Nat) (s : State) : State := match s.routeOf i with
  | some r => s.forEach (r.path.drop (s.slot i).rel.released) State.disarm
  | none => s

/-- R52 and R62: the slot is emptied and becomes FREE with its last outcome. Its locks go, in the order of lockOrder (log 59), its flank
is released, WITHDRAW is sent for an outgoing offer that stands, and the HC forgets the slot. That what the rules' steps leave out goes
first (passage marks, occupied_beyond) or just before the slot (the HC's share), that each waiting throw order goes with its lock or claim,
and that the slot's causes go last, is the model's choice (DESIGN CHOICE, log 68). -/
def State.vacate (i : Nat) (out : LastOutcome) (s : State) : State :=
  match s.routeOf i with
  | none => (s.putSlot i { lastOutcome := out }).reassess (.slot i)
  | some r =>
    let entry := s.entryBoundary i
    let exit := s.exitBoundary i
    let passing := (s.slot i).state == .passing
    let s := if passing then (s.disarmAll i).clearBeyond exit else s
    let s := s.forEach r.lockOrder (State.unlock i)
    let s := s.forEach (s.requirementIds i) (State.releaseRequirement i)
    let s := match s.offerOf i with
      | some (e, _) => s.withdrawOutgoing e
      | none => s
    let s := s.forgetSlot i entry exit
    ((s.putSlot i { lastOutcome := out }).reassess (.slot i)).reassess (.element r.entry)

/-- R52, R53: a PENDING slot is dropped; one in another state is not. -/
def State.dropSlot (i : Nat) (reason : DropReason) (s : State) : State :=
  if (s.slot i).state = .pending then s.vacate i (.dropped reason) else s

/-- R62: a slot is released whole. -/
def State.releaseSlot (i : Nat) (reason : ReleaseReason) (s : State) : State :=
  (s.withdrawPermission i).vacate i (.released reason)

/-! ### The opening conditions (R54) -/

/-- The proving of an entry signal agrees with its permission (R54). After its proving timer has expired the slot waits for an event of
R56 before its signal counts as proved at stop again (R57, log 35). -/
def State.provingAgrees (s : State) (i g : Nat) : Bool :=
  !(s.slot i).unproven && match s.permission g with
  | .stop => s.stopProven g
  | .proceed => (s.signal g).proving == .proceedProven ||
      (s.stopProven g && (s.slot i).provingTimer != .stopped)

/-- A flank requirement is HELD, and its local candidate is satisfied (R54). -/
def State.flankHolds (s : State) (i j : Nat) : Bool := match s.requirement i j, s.chosen i j with
  | some q, some c => q.state == .held && s.inClaimedState c
  | _, _ => false

/-- R54: the waiting reasons of a slot: the conditions that apply to its route and do not hold. -/
def State.failing (s : State) (i : Nat) : Waiting :=
  match s.routeOf i with
  | none => {}
  | some r =>
    { points := !(r.allPoints.all (fun q => s.detectedIn q.point q.position && (s.throwOf q.point).order.isNone))
      flank := !((s.requirementIds i).all (s.flankHolds i))
      sections := !(r.allSections.all s.isClear)
      boundary :=
        (match s.exitBoundary i with
          | some _ => !(match s.offerOf i with
            | some (_, o) => o.accepted
            | none => false)
          | none => false) ||
        (match s.entryBoundary i with
          | some e => !(s.roleOf e == some .entry || s.directionIs e .inbound)
          | none => false)
      link := match s.exitBoundary i with
        | some e => match s.linkOf e with
          | some l => s.linkDown l
          | none => false
        | none => false
      signalFlankHeld := match s.entrySignal i with
        | some g => decide (0 < s.claimCount g)
        | none => false
      proving := match s.entrySignal i with
        | some g => !s.provingAgrees i g
        | none => false
      mode := !(s.su.mode == .normal || s.su.mode == .restricted) || decide ((FaultKind.hostSilent, Subject.device) ∈ s.su.causes) }

/-! ### Commit (R47, R49) -/

/-- R49: the throw order for one point requirement. -/
def State.orderForPoint (q : PointReq) (s : State) : State :=
  if s.detectedIn q.point q.position || s.orderedTo q.point q.position then s else s.takeOrder q.point q.position

/-- R49: the throw order for the local point candidate of a HELD requirement, and its claim made FIRM. -/
def State.firmRequirement (i j : Nat) (s : State) : State :=
  match s.requirement i j with
  | some q => match s.chosen i j with
    | some (.remote ..) => s
    | _ => s.putRequirement i j { q with firm := true }
  | none => s

/-- R49: the throw order of one flank requirement. -/
def State.orderForFlank (i j : Nat) (s : State) : State :=
  match s.requirement i j, s.chosen i j with
  | some q, some (.localPoint p pos) => if q.state = .held then s.orderForPoint ⟨p, pos⟩ else s
  | _, _ => s

/-- R49: a slot commits. Locks, in the order of lockOrder (log 59), and claims become FIRM, the pending timer stops, throw orders are
given for path points, overlap points and flank points, and the slot enters LOCKED. The order of the locks, the requirement records and
the slot among themselves is the model's choice (DESIGN CHOICE, log 68). -/
def State.commit (i : Nat) (s : State) : State :=
  match s.routeOf i with
  | none => s
  | some r =>
    let s := s.forEach r.lockOrder (State.firmLock i)
    let s := s.forEach (s.requirementIds i) (State.firmRequirement i)
    let s := s.forEach r.allPoints State.orderForPoint
    let s := s.forEach (s.requirementIds i) (State.orderForFlank i)
    s.updSlot i (fun x => { x with state := .locked, pendingTimer := .stopped, needs := {}, hasBeenOpened := false })

/-! ### Opening and withdrawal (R55 to R59) -/

/-- R56, R59: a LOCKED slot opens. The entry signal's permission becomes PROCEED and the proving timer starts; an ENTRY slot has
no signal, and opens to the neighbour's offer. The slot is marked before the signal (DESIGN CHOICE, log 68). -/
def State.openSlot (i : Nat) (s : State) : State :=
  match s.entrySignal i with
  | some g =>
    (s.updSlot i (fun x => { x with
      state := .opened, waiting := {}, hasBeenOpened := true, provingTimer := s.timer (s.provingLimit g) })).setPermission g .proceed
  | none =>
    let s := s.updSlot i (fun x => { x with state := .opened, waiting := {} })
    match s.entryBoundary i with
    | some e => s.tryAccept e
    | none => s

/-- R55: a LOCKED slot opens when no condition fails, and otherwise shows the reasons. -/
def State.evaluateLocked (i : Nat) (s : State) : State :=
  if s.failing i = {} then s.openSlot i else s.updSlot i (fun x => { x with waiting := s.failing i })

/-- R58: UNEXPECTED_OCCUPANCY for each path section other than the first that has ceased to be CLEAR. -/
def State.raiseOccupancy (i : Nat) (s : State) : State := match s.routeOf i with
  | some r => s.forEach ((r.path.drop 1).filter s.isOccupied) (fun e t => t.raiseNow .unexpectedOccupancy (.element e))
  | none => s

/-- R58: an OPEN slot with a condition that does not hold has its permission withdrawn and returns to LOCKED. -/
def State.withdrawSlot (i : Nat) (s : State) : State :=
  ((s.withdrawPermission i).updSlot i (fun x => { x with state := .locked })).raiseOccupancy i

/-- R56: the evaluation of an OPEN slot; back in LOCKED it is evaluated again at once (R55). -/
def State.evaluateOpen (i : Nat) (s : State) : State :=
  if s.failing i = {} then s else (s.withdrawSlot i).evaluateLocked i

/-- R47: the FLANK need of a PENDING slot follows its requirements; with no need left, the slot commits, and is evaluated. -/
def State.evaluatePending (i : Nat) (s : State) : State :=
  let s := s.updSlot i (fun x => { x with needs := { x.needs with flank := x.requirements.any (fun q => q.state != .held) } })
  if (s.slot i).needs = {} then (s.commit i).evaluateLocked i else s

/-- The LE's evaluation of one slot (R47, R56). -/
def State.evaluateSlot (i : Nat) (s : State) : State := match (s.slot i).state with
  | .pending => s.evaluatePending i
  | .locked => s.evaluateLocked i
  | .opened => s.evaluateOpen i
  | _ => s

/-- R56: the LE evaluates its slots, in increasing slot id order. -/
def State.lockingPass (s : State) : State := s.forEach slotIds State.evaluateSlot

end Sys2Proof.Machine
end

