-- ==== Sys2Proof/Machine/FlankSearch.lean ====
section
/-! DEFINITION. The Flank Engine, upper half: the search through a requirement's candidates, lost flank, a requirement with no
candidate left, and the answers to asks (04_flank_protection.md, R69 to R76). -/

namespace Sys2Proof.Machine

/-- The element of the local claim a requirement holds. -/
def State.ownClaim (s : State) (i j : Nat) : Option Nat := match s.requirement i j, s.chosen i j with
  | some q, some (.localPoint p _) => if q.state = .held then some p else none
  | some q, some (.localSignal g) => if q.state = .held then some g else none
  | _, _ => none

/-- R69, R75: a local candidate is chosen. A claim is placed unless the requirement holds the claim on this element already; the
requirement becomes HELD; a FIRM claim on a point is followed by a throw order (R77); the claim held before is removed
afterwards. -/
def State.chooseLocal (i j k e : Nat) (want : Required) (own : Option Nat) (s : State) : State :=
  let firm := (s.slot i).state != .pending
  let record : Requirement :=
    { state := .held, candidate := some k, firm := firm, satisfied := s.inRequiredState e want }
  if own = some e then s.setRequirement i j record
  else
    let s := (s.placeClaim e want).setRequirement i j record
    let s := match want.position with
      | some pos => if firm then s.orderForClaim e pos else s
      | none => s
    match own with
    | some o => s.removeClaim o
    | none => s

/-- R69, R75: a remote candidate is chosen: the ask is sent or deferred (R72), and a claim held before is removed afterwards. -/
def State.chooseRemote (i j k l element : Nat) (want : Required) (own : Option Nat) (s : State) : State :=
  let s := s.sendAsk i j k l element want
  match own with
  | some o => s.removeClaim o
  | none => s

/-- R69: the first candidate that can be had, from a list beginning at index `k`, is placed. None when there is none. -/
def State.search (i j : Nat) (own : Option Nat) : Nat → List Candidate → State → Option State
  | _, [], _ => none
  | k, .localPoint p pos :: rest, s =>
    if s.pointAvailable p pos (own == some p) then some (s.chooseLocal i j k p pos.required own)
    else State.search i j own (k + 1) rest s
  | k, .localSignal g :: rest, s =>
    if s.signalAvailable g (own == some g) then some (s.chooseLocal i j k g .stop own)
    else State.search i j own (k + 1) rest s
  | k, .remote l element want :: rest, s =>
    if s.askable i l 0 then some (s.chooseRemote i j k l element want own)
    else State.search i j own (k + 1) rest s

/-- R69: a search for one requirement, starting at a candidate index. -/
def State.searchFrom (i j start : Nat) (own : Option Nat) (s : State) : Option State :=
  s.search i j own start ((s.candidates i j).drop start)

/-- R70: a requirement is left with no candidate. A PENDING slot is dropped; in every other state the requirement becomes LOST
and FLANK_LOST is raised. -/
def State.noCandidate (i j : Nat) (s : State) : State :=
  if (s.slot i).state = .pending then s.dropSlot i .flankUnavailable
  else (s.setRequirement i j { state := .lost }).raiseNow .flankLost (.slot i)

/-- A search, with what R70 makes of its failure. -/
def State.searchOr (i j start : Nat) (s : State) : State := (s.searchFrom i j start none).getD (s.noCandidate i j)

/-- R75: held local flank is lost. The old claim is kept through the search, and removed unless the search chooses it again. -/
def State.loseLocal (i j e : Nat) (s : State) : State :=
  match s.searchFrom i j 0 (some e) with
  | some s' => s'
  | none => if (s.slot i).state = .pending then s.noCandidate i j else (s.removeClaim e).noCandidate i j

/-- R74: NEXT. The ask is given up and the search goes on at the following candidate. -/
def State.nextCandidate (i j l : Nat) (s : State) : State :=
  let start := match s.requirement i j with
    | some q => q.candidate.getD 0 + 1
    | none => 0
  ((s.giveUpAsk i j l).setRequirement i j { state := .lost }).searchOr i j start

/-- R75: a HELD remote requirement is lost by FLANK_WITHDRAWN or with its link: its ask is given up (no telegram leaves a link that is
DOWN), and the search starts from index 0. -/
def State.loseRemote (i j l : Nat) (s : State) : State :=
  ((s.giveUpAsk i j l).setRequirement i j { state := .lost }).searchOr i j 0

/-- R75: a HELD remote requirement is lost because the neighbour's STATE lists its reference no longer: no telegram, and the
reference is not retired. -/
def State.loseUnlisted (i j : Nat) (s : State) : State :=
  (s.setRequirement i j { state := .lost }).searchOr i j 0

/-- R71: a LOST requirement is searched again; one that finds nothing stays LOST. -/
def State.searchAgain (i j : Nat) (s : State) : State := (s.searchFrom i j 0 none).getD s

/-- The slot and requirement an ask reference names (R65). -/
def askSlot (r : Nat) : Nat × Nat := (r / 16, r % 16)

/-- The requirement an answer from a link acts on is ASKED and sent, or HELD (R74). -/
def State.answered (s : State) (l r : Nat) : Option Requirement :=
  let p := askSlot r
  if p.1 < Config.slotCount ∧ s.askLink p.1 p.2 = some l then
    match s.requirement p.1 p.2 with
    | some q => if q.deferred then none else some q
    | none => none
  else none

/-! ### The passes of the FE over one event's changes (R69, R71, R75, R76, R81) -/

/-- A change concerns a candidate of a LOST requirement (R71). -/
def State.concerns (s : State) : Candidate → Work → Bool
  | .localPoint p _, .point q | .localPoint p _, .lock q | .localPoint p _, .claim q => p == q
  | .localPoint p _, .sect e => s.containing p == e
  | .localSignal g, .signal h => g == h
  | .remote l _ _, .linkUp m => l == m
  | .remote l _ _, .askRoom m => l == m
  | _, _ => false

/-- R71: a LOST requirement is searched again when one of the changes concerns one of its candidates. -/
def State.searchIfConcerned (changes : List Work) (i j : Nat) (s : State) : State :=
  if (s.candidates i j).any (fun c => changes.any (s.concerns c)) then s.searchAgain i j else s

/-- The satisfied flag of a HELD local requirement follows its element (R65, R76). -/
def State.refreshSatisfied (i j : Nat) (s : State) : State :=
  match s.requirement i j, s.chosen i j with
  | some q, some (.remote ..) => if q.satisfied then s.putRequirement i j { q with satisfied := false } else s
  | some q, some c =>
    if q.state = .held ∧ q.satisfied ≠ s.inClaimedState c then
      s.putRequirement i j { q with satisfied := s.inClaimedState c }
    else s
  | _, _ => s

/-- What a set of changes makes of one requirement: held flank lost (R75), an ask abandoned with its link (R75), a LOST one
searched again (R71), and that also for what the searches before it in the pass have changed, so that a chain of searches keeps
the order of R69. In TIMED_RELEASE no search is made (R116). -/
def State.reviewRequirement (changes : List Work) (i j : Nat) (s : State) : State :=
  let s := match s.requirement i j with
    | none => s
    | some q =>
      if (s.slot i).state = SlotState.timedRelease then s
      else match q.state, s.chosen i j with
        | .held, some (.localPoint p _) => if Work.faulted p ∈ changes then s.loseLocal i j p else s
        | .held, some (.localSignal g) => if Work.unproved g ∈ changes then s.loseLocal i j g else s
        | .held, some (.remote l _ _) => if Work.linkDown l ∈ changes then s.loseRemote i j l else s
        | .asked, some (.remote l _ _) => if Work.linkDown l ∈ changes then s.nextCandidate i j l else s
        | .lost, _ => s.searchIfConcerned (changes ++ s.work) i j
        | _, _ => s
  s.refreshSatisfied i j

/-- The FE takes the changes, requirement by requirement in the order of R69. -/
def State.reviewRequirements (changes : List Work) (s : State) : State :=
  s.forEach s.allRequirements (fun p t => t.reviewRequirement changes p.1 p.2)

/-- R81: what a set of changes makes of one given claim: FLANK_WITHDRAWN when it has become unsatisfiable, FLANK_GIVEN when its
element is first satisfied. Both flags are set whether or not the link can carry the telegram (log 13). -/
def State.reviewGiven (changes : List Work) (l r : Nat) (s : State) : State :=
  match (s.link l).given.find? (fun c => c.reference == r) with
  | none => s
  | some c =>
    let write (x : GivenClaim) (t : State) : State :=
      (t.updLink l (fun k => { k with given := k.given.map (fun y => if y.reference = r then x else y) })).mark (.link l)
    if !c.withdrawn && (decide (Work.faulted c.element ∈ changes) || decide (Work.unproved c.element ∈ changes)) then
      (write { c with withdrawn := true } s).hand l (.flankWithdrawn r)
    else if !c.given && !c.withdrawn && s.inRequiredState c.element c.required then
      (write { c with given := true } s).hand l (.flankGiven r)
    else s

/-- The FE reviews its given claims, link by link in table order (R81). -/
def State.reviewAllGiven (changes : List Work) (s : State) : State :=
  s.forEach linkIds (fun l t => t.forEach ((t.link l).given.map GivenClaim.reference) (State.reviewGiven changes l))

end Sys2Proof.Machine
end

