-- ==== Sys2Proof/Machine/Release.lean ====
section
/-! DEFINITION. The Release Unit: passage of the entry, sectional release, the overlap, the approach release time, approach
locking and timed emergency release (06_release_approach_locking_and_overlaps.md, R98 to R116), with the HC's share of
them (R137, R142, R143). -/

namespace Sys2Proof.Machine

/-! ### The approach release time (R111 to R113) -/

/-- Division rounded up. -/
def ceilDiv (n d : Nat) : Nat := (n + d - 1) / d

/-- R111: the time from the arrival on X to the arrival on Y, when the pair is valid at `now`. -/
def pairDt (now : Time) (staleness : Nat) (x y : Option Time) : Option Nat :=
  match x, y with
  | some tx, some ty =>
    if Time.since ty tx ≤ 600000 ∧ Time.since now ty ≤ staleness then some (Time.since ty tx) else none
  | _, _ => none

/-- R111: the measurement on a pair of approach sections. -/
def State.measurePair (s : State) (x y : Nat) : Option Measurement :=
  (pairDt s.time s.cfg.params.staleness (s.sect x).occupiedAt (s.sect y).occupiedAt).map (fun dt => ⟨x, y, dt⟩)

/-- R111: the measurement on approach sections listed nearest first: the pair next to the signal, then the one before it. -/
def State.measureNearest (s : State) : List Nat → Option Measurement
  | y :: x :: w :: _ => (s.measurePair x y).or (s.measurePair w x)
  | [y, x] => s.measurePair x y
  | _ => none

/-- R111: the first valid pair of a route's approach sections gives the measurement. -/
def State.measure (s : State) (r : RouteDef) : Option Measurement := s.measureNearest r.approach.reverse

/-- The length of a section in metres. -/
def State.lengthOf (s : State) (e : Nat) : Nat := match s.defn e with
  | some (.sect n) => n
  | _ => 0

/-- R112: the measured speed in cm/s, for a length in metres and a time in ms, rounded up. -/
def measuredSpeed (length dt : Nat) : Nat := if dt = 0 then 12000 else ceilDiv (length * 100000) dt

/-- R112: the speed to be used, before the cap. -/
def speedBeforeCap (s : State) (r : RouteDef) (m : Option Measurement) : Nat := match m with
  | some x => ceilDiv (measuredSpeed (s.lengthOf x.first) x.dt * (100 + s.cfg.params.margin)) 100
  | none => r.vmax

/-- R112: the cap of 12,000 cm/s, with SPEED_CLAMPED. -/
def capSpeed (v : Nat) : Nat × Bool := if 12000 < v then (12000, true) else (v, false)

/-- R113: the braking time in ms for a speed and a deceleration, rounded up. -/
def brakingMs (v b : Nat) : Nat := ceilDiv (v * 1000) b

/-- R113: the release time in tenths of a second before clamping, rounded up. -/
def rawReleaseTime (v b reaction : Nat) : Nat := ceilDiv (brakingMs v b + reaction) 100

/-- R113: the clamp to 50 to 3000 tenths of a second, with TIME_CLAMPED. -/
def clampTime (t : Nat) : Nat × Bool := if t < 50 then (50, true) else if 3000 < t then (3000, true) else (t, false)

/-- R110: the approach fields of a slot's release record, and its approach timer, at the entry to APPROACH_LOCKED. -/
def State.approachRecord (s : State) (r : RouteDef) (rel : ReleaseRecord) : ReleaseRecord :=
  match r.method with
  | .fixed => { rel with
      method := some .fixed, measurement := none, vUsed := none, releaseTime := some r.fixedTime
      speedClamped := false, timeClamped := false, approachTimer := s.timer (r.fixedTime * 100) }
  | .computed =>
    let m := s.measure r
    let v := capSpeed (speedBeforeCap s r m)
    let t := clampTime (rawReleaseTime v.1 r.decel r.reaction)
    { rel with
      method := some .computed, measurement := m, vUsed := some v.1, releaseTime := some t.1
      speedClamped := v.2, timeClamped := t.2, approachTimer := s.timer (t.1 * 100) }

/-- R63, R110: a slot enters approach locking. Its permission is withdrawn if it is OPEN; every lock, claim, order and offer is
kept. -/
def State.approachLock (i : Nat) (s : State) : State :=
  match s.routeOf i with
  | none => s
  | some r =>
    (s.withdrawPermission i).updSlot i (fun x => { x with
      state := .approachLocked, waiting := {}, rel := s.approachRecord r x.rel })

/-- R61, R137: a slot that has been opened, with its approach occupied. -/
def State.mustApproachLock (s : State) (i : Nat) : Bool := match s.routeOf i with
  | some r => (s.slot i).hasBeenOpened && s.approachOccupied r
  | none => false

/-! ### Sectional release and the overlap (R103 to R109) -/

/-- R106: one requirement of a released path section is released: its protected point lies in that section. -/
def State.releaseWithSection (i e : Nat) (r : RouteDef) (j : Nat) (s : State) : State :=
  match r.flank[j]? with
  | some q => if !r.releasedWithOverlap q && s.containing q.guarded == e then s.releaseRequirement i j else s
  | none => s

/-- R109: one requirement of the overlap is released. -/
def State.releaseWithOverlap (i : Nat) (r : RouteDef) (j : Nat) (s : State) : State :=
  match r.flank[j]? with
  | some q => if r.releasedWithOverlap q then s.releaseRequirement i j else s
  | none => s

/-- R106: a path section is released: its lock, then the locks of the path points it contains and the flank requirements of
those points; its mark is disarmed and the released count rises. -/
def State.releaseSection (i e : Nat) (r : RouteDef) (s : State) : State :=
  let s := s.unlock i e
  let s := s.forEach ((r.points.map PointReq.point).filter (fun p => s.containing p == e)) (State.unlock i)
  let s := s.forEach (s.requirementIds i) (State.releaseWithSection i e r)
  (s.disarm e).updRelease i (fun x => { x with released := x.released + 1 })

/-- R109: the overlap is released, whether or not its sections are occupied: its sections, its points, the requirements in index order,
and then the slot's record (DESIGN CHOICE, log 68). -/
def State.releaseOverlap (i : Nat) (r : RouteDef) (s : State) : State :=
  let s := s.forEach (r.overlapSections ++ r.overlapPoints.map PointReq.point) (State.unlock i)
  let s := s.forEach (s.requirementIds i) (State.releaseWithOverlap i r)
  s.updRelease i (fun x => { x with overlap := .released, overlapTimer := .stopped })

/-- A section's passage mark is armed and set (R5). -/
def State.markSet (s : State) (e : Nat) : Bool := (s.sect e).mark == .armed true

/-- R109: the overlap timer starts when the mark of the last path section becomes set while the slot is PASSING with its overlap
HELD; with a release time of 0 the overlap is released at once. -/
def State.startOverlap (i : Nat) (r : RouteDef) (s : State) : State :=
  match r.lastSection, r.overlap with
  | some e, some o =>
    if (s.slot i).rel.overlap = .held ∧ s.markSet e then
      if o.release = 0 then s.releaseOverlap i r
      else s.updRelease i (fun x => { x with overlap := .timing, overlapTimer := s.timer (o.release * 100) })
    else s
  | _, _ => s

/-- R104, R105: the path section at index `k`, the first unreleased one, may be released. -/
def State.releasable (s : State) (i k : Nat) (r : RouteDef) : Bool :=
  match r.path[k]? with
  | none => false
  | some e =>
    s.isClear e && s.markSet e &&
    (match r.path[k + 1]? with
      | some next => s.isOccupied next || s.markSet next
      | none =>
        (match s.exitBoundaryOf r with
          | some b => (s.boundary b).occupiedBeyond
          | none => (s.slot i).rel.overlap == .none || (s.slot i).rel.overlap == .released)) &&
    (if r.cls = .entry ∧ k = 0 then (s.slot i).rel.clearedBehind else true)

/-- R107, R143: the last path section has been released and the slot becomes FREE behind its train. For an exit boundary route
the outgoing offer is removed without a WITHDRAW and CLEARED_BEHIND is handed, the first before the slot is FREE and the second after it
(DESIGN CHOICE, log 68). -/
def State.finishPassage (i : Nat) (s : State) : State :=
  match s.exitBoundary i with
  | some e =>
    let s := match s.offerOf i with
      | some (b, _) => s.removeOutgoing b false
      | none => s
    (s.vacate i (.released .passed)).handFor e (.clearedBehind (s.remoteOf e))
  | none => s.vacate i (.released .passed)

/-- R104: path sections are released one after another, at most `n` of them, until one is not releasable or none is left. -/
def State.releaseLoop (i : Nat) (r : RouteDef) : Nat → State → State
  | 0, s => s
  | n + 1, s =>
    let k := (s.slot i).rel.released
    if s.releasable i k r then
      match r.path[k]? with
      | some e =>
        let s := s.releaseSection i e r
        if k + 1 = r.path.length then s.finishPassage i else State.releaseLoop i r n s
      | none => s
    else s

/-- R104, R109: the RU evaluates a PASSING slot's release. -/
def State.evaluateRelease (i : Nat) (s : State) : State :=
  if (s.slot i).state = .passing then
    match s.routeOf i with
    | some r => (s.startOverlap i r).releaseLoop i r r.path.length
    | none => s
  else s

/-! ### Passage (R99 to R102) -/

/-- R5, R103: a section's passage mark is armed: set if the section counts as occupied now. -/
def State.armMark (e : Nat) (s : State) : State := s.putSection e { s.sect e with mark := .armed (s.isOccupied e) }

/-- R99 to R101: the slot enters PASSING. The permission is withdrawn if it is OPEN, the approach timer stops, passed_at is set,
released pending is forgotten (R137), the marks are armed, an ENTRY slot that was accepted tells the neighbour (R142), and
sectional release is evaluated. That the neighbour is told, and released pending forgotten, where they are is the model's choice
(DESIGN CHOICE, log 68). -/
def State.enterPassing (i : Nat) (s : State) : State :=
  match s.routeOf i with
  | none => s
  | some r =>
    let s := (s.withdrawPermission i).updSlot i (fun x => { x with
      state := .passing, waiting := {}, provingTimer := .stopped
      rel := { x.rel with passedAt := some s.time, approachTimer := .stopped } })
    let s := s.forgetSlot i none (s.exitBoundary i)
    let s := s.forEach r.path State.armMark
    let s := match s.entryBoundary i with
      | some e => if (s.slot i).hasBeenOpened then s.handFor e (.occupiedBeyond (s.remoteOf e)) else s
      | none => s
    s.evaluateRelease i

/-- R99 to R102: S1 of a slot has become occupied. UNAUTHORISED_PASSING is raised before passed_at is set, the order in which R101 and the
table of R102 name the two (DEDUCED, log 69). -/
def State.passageEvent (i : Nat) (s : State) : State :=
  let x := s.slot i
  let isEntry := (s.entryBoundary i).isSome
  match x.state with
  | .opened =>
    if isEntry && !x.hasBeenOpened then (s.raiseNow .unauthorisedPassing (.slot i)).enterPassing i else s.enterPassing i
  | .locked | .approachLocked =>
    if isEntry && (x.hasBeenOpened || x.state == .approachLocked) then s.enterPassing i
    else (s.raiseNow .unauthorisedPassing (.slot i)).enterPassing i
  | .awaitReleased => s.enterPassing i
  | .timedRelease =>
    if x.rel.passedAt.isSome then s
    else
      let s' := if isEntry && x.hasBeenOpened then s else s.raiseNow .unauthorisedPassing (.slot i)
      s'.updRelease i (fun y => { y with passedAt := some s.time })
  | _ => s

/-- The slot that holds a path lock on a section. -/
def State.pathHolder (s : State) (e : Nat) : Option Nat := match s.lock e with
  | some l => if l.kind = .path then some l.holder else none
  | none => none

/-- The RU takes a change of a section's held detection: a passage event at the slot that holds it as S1 (R99), and the
evaluation of that slot's sectional release (R104). -/
def State.takeOccupation (e : Nat) (s : State) : State :=
  match s.pathHolder e with
  | none => s
  | some i =>
    let first := match s.routeOf i with
      | some r => r.firstSection == some e
      | none => false
    let s := if first && ((s.sect e).held == .occupied || (s.sect e).held == .disturbed) then s.passageEvent i else s
    s.evaluateRelease i

/-! ### The ends of approach locking and of timed release (R110, R115, R116, R137) -/

/-- R110, R137: the approach timer expires. The slot is released, and a RELEASED owed to the neighbour is sent. -/
def State.approachExpired (i : Nat) (s : State) : State :=
  let owed := match s.exitBoundary i with
    | some e => if (s.boundary e).releasedPending = some i then some e else none
    | none => none
  let s := s.releaseSlot i .approachExpired
  match owed with
  | some e => s.handFor e (.released i)
  | none => s

/-- R115, step 4: one requirement at the entry to TIMED_RELEASE. -/
def State.timedRequirement (i j : Nat) (s : State) : State :=
  match s.requirement i j with
  | some q =>
    if q.state = .lost then s.setRequirement i j { state := .released }
    else if (s.askLink i j).isSome then s.releaseRequirement i j else s
  | none => s

/-- R115, step 5, R141: an accepted incoming offer that an ENTRY slot holds is withdrawn. -/
def State.withdrawIncoming (i : Nat) (s : State) : State :=
  match s.entryBoundary i with
  | some e => match (s.boundary e).incoming with
    | some o =>
      if o.accepted ∧ (s.boundary e).entrySlot = some i then
        (s.handFor e (.withdraw o.reference)).updBoundary e (fun b => { b with incoming := none })
      else s
    | none => s
  | none => s

/-- R115: a slot enters TIMED_RELEASE, step by step in the order in which the rule numbers them. What the boundary elements still hold of the slot (R137, R142)
goes after the sixth step (DESIGN CHOICE, log 68). -/
def State.enterTimedRelease (i : Nat) (s : State) : State :=
  let passing := (s.slot i).state = .passing
  let s := s.withdrawPermission i
  let s := s.updSlot i (fun x => { x with
    needs := {}, pendingTimer := .stopped, provingTimer := .stopped
    rel := { x.rel with approachTimer := .stopped, overlapTimer := .stopped } })
  let s := if passing then s.disarmAll i else s
  let s := s.forEach (s.requirementIds i) (State.timedRequirement i)
  let s := match s.offerOf i with
    | some (e, _) => s.withdrawOutgoing e
    | none => s
  let s := s.withdrawIncoming i
  let s := s.updSlot i (fun x => { x with
    state := .timedRelease, waiting := {}, rel := { x.rel with emergencyTimer := s.timer Config.emergencyMs } })
  let s := if passing then s.clearBeyond (s.exitBoundary i) else s
  s.forgetSlot i none (s.exitBoundary i)

end Sys2Proof.Machine
end

