-- ==== Sys2Proof/Machine/Settle.lean ====
section
/-! DEFINITION. How one event ends: the changes it has noted are taken by the Handover Controller (R150), the Flank Engine (R69
to R75, R81) and the Locking Engine (R56), round by round, until nothing is left to take (log 6). -/

namespace Sys2Proof.Machine

/-- R150: an entry to DOWN, at one boundary element of the link. -/
def State.linkDownAt (e : Nat) (s : State) : State :=
  let s := match (s.boundary e).incoming with
    | some o => if o.accepted then s else s.updBoundary e (fun b => { b with incoming := none })
    | none => s
  match (s.boundary e).outgoing with
  | none => s
  | some o =>
    if o.accepted then
      match (s.slot o.slot).state with
      | .pending => (s.removeOutgoing e false).dropSlot o.slot .linkDown
      | .locked | .opened | .approachLocked => s.removeOutgoing e false
      | _ => s
    else (s.removeOutgoing e false).dropSlot o.slot .linkDown

/-- R150: the HC acts on every boundary element of a link that entered DOWN, in increasing element id order (DESIGN CHOICE, log 56). -/
def State.handoverLinkLoss (l : Nat) (s : State) : State := s.forEach (s.boundariesOn l) State.linkDownAt

/-- The links whose entry to DOWN is among the changes. -/
def downLinks (changes : List Work) : List Nat := linkIds.filter (fun l => decide (Work.linkDown l ∈ changes))

/-- The links whose entry to UP is among the changes. -/
def upLinks (changes : List Work) : List Nat := linkIds.filter (fun l => decide (Work.linkUp l ∈ changes))

/-- A PENDING slot is reached by the HC and by the FE at one entry to DOWN: it has an outgoing offer and a remote requirement on
the link (R128, R150). -/
def State.contested (s : State) (l : Nat) : Bool :=
  (s.boundariesOn l).any (fun e => match (s.boundary e).outgoing with
    | some o => (s.slot o.slot).state == .pending &&
        (s.requirementIds o.slot).any (fun j => s.askLink o.slot j == some l)
    | none => false)

/-- The FE takes a set of changes: the searches of its requirements first, then its given claims link by link (R81; DESIGN CHOICE, log 61),
then deferred asks of links that came UP; the HC then sends the deferred offers of those links (R72, R133), after the asks (DESIGN CHOICE,
log 52). -/
def State.flankReview (changes : List Work) (s : State) : State :=
  let s := (s.reviewRequirements changes).reviewAllGiven changes
  let s := s.forEach (upLinks changes) State.sendDeferredAsks
  s.forEach (upLinks changes) State.sendDeferredOffers

/-- The route of a slot requires a point, in its path or its overlap. -/
def State.throughPoint (s : State) (i p : Nat) : Bool := match s.routeOf i with
  | some r => r.allPoints.any (fun q => q.point == p)
  | none => false

/-- R56, R64: a change concerns the opening conditions of a slot (log 35). -/
def State.concernsSlot (s : State) (i : Nat) : Work → Bool
  | .point p | .order p => s.throughPoint i p
  | .sect e => match s.routeOf i with
    | some r => r.allSections.contains e
    | none => false
  | .proving g => s.entrySignal i == some g
  | .claim e => s.entrySignal i == some e || s.throughPoint i e
  | .requirement k => k == i
  | .offer e => s.exitBoundary i == some e
  | .linkDown l => match s.exitBoundary i with
    | some e => s.linkOf e == some l
    | none => false
  | .conditions => true
  | .lock _ | .signal _ | .slot _ | .boundary _ | .faulted _ | .unproved _ | .linkUp _ | .askRoom _ => false

/-- R57: a slot whose proving timer has expired is evaluated again by its conditions once a change concerns it. Nothing the host is
shown changes by this alone. -/
def State.heedSlot (changes : List Work) (i : Nat) (s : State) : State :=
  if (s.slot i).unproven && changes.any (s.concernsSlot i) then
    { s with locking := { s.locking with slots := s.locking.slots.put i { s.slot i with unproven := false } } }
  else s

/-- The LE learns which of its slots a set of changes concerns (R56, R57). -/
def State.heed (changes : List Work) (s : State) : State := s.forEach slotIds (State.heedSlot changes)

/-- The changes noted so far are taken by the HC and the FE. Which of the two takes an entry to DOWN first is left open where
it decides a slot's drop reason: a free choice there (log 5), the HC first elsewhere. -/
def State.takeChanges (s : State) : State :=
  let changes := s.work
  let s := { s with work := [] }.heed changes
  let hc (t : State) : State := t.forEach (downLinks changes) State.handoverLinkLoss
  if (downLinks changes).any s.contested then
    let c := s.choose
    if c.1 % 2 = 0 then (hc c.2).flankReview changes else hc (c.2.flankReview changes)
  else (hc s).flankReview changes

/-- At most `n` rounds: the HC and the FE take changes while there are any, and then the LE evaluates its slots. After the last round an
evaluation is still owed, and waits for the next event. -/
def State.settleRounds : Nat → State → State
  | 0, s => s.note .conditions
  | n + 1, s =>
    if s.work = [] then
      let s' := s.lockingPass
      if s'.work = [] then s' else State.settleRounds n s'
    else State.settleRounds n s.takeChanges

/-- The cascade of one event is carried to its end. -/
def State.settle (s : State) : State := if s.work = [] then s else State.settleRounds Config.settleRounds s

end Sys2Proof.Machine
end

