-- ==== Sys2Proof/Machine/FieldImage.lean ====
section
/-! DEFINITION. The Field Image: field and supply report entries, restoration, withdrawal supervision and completion
(01_field_elements_and_the_field_image.md, R3 to R19). -/

namespace Sys2Proof.Machine

/-! ### What a report entry carries -/

/-- A section value the host may report (R9, R178). -/
def sectionValue (v : Nat) : Option Occupation :=
  if v = 1 then some .clear else if v = 2 then some .occupied else if v = 3 then some .disturbed else none

/-- A point value the host may report (R9, R178). -/
def pointValue (v : Nat) : Option Detection :=
  if v = 1 then some .normal else if v = 2 then some .reverse else if v = 3 then some .moving
  else if v = 4 then some .lost else none

/-- A signal value the host may report (R9, R178). -/
def signalValue (v : Nat) : Option Proving :=
  if v = 1 then some .stopProven else if v = 2 then some .proceedProven else if v = 3 then some .notProven else none

/-- A supply value the host may report (R11, R178). -/
def supplyValue (v : Nat) : Option Supply := if v = 1 then some .on else if v = 2 then some .off else none

/-! ### Completion (R19) -/

/-- R19: the first applied entry of an element or group. The outstanding count falls, and at 0 the SU takes STARTUP to
RESTRICTED. -/
def State.heard (s : State) : State :=
  let s := s.putOutstanding (s.field.outstanding - 1)
  if s.field.outstanding = 0 ∧ s.su.mode = .startup then s.setMode .restricted else s

/-! ### Section entries (R3 to R5, R10, R12) -/

/-- The held detection after a report (R3, R12). -/
def SectionImage.heldAfter (x : SectionImage) (v : Occupation) : Occupation := if x.held = .disturbed then .disturbed else v

/-- R4: the occupied_at stamp when the held detection goes from `before` to `after`. -/
def occupiedStamp (now : Time) (before after : Occupation) (stamp : Option Time) : Option Time :=
  if after = .disturbed then none
  else if before = .clear ∧ after = .occupied then some now
  else stamp

/-- R4: the cleared_at stamp when the held detection goes from `before` to `after`. -/
def clearedStamp (now : Time) (before after : Occupation) (stamp : Option Time) : Option Time :=
  if after = .clear ∧ before ≠ .clear then some now else stamp

/-- R5: a passage mark when the held detection goes from `before` to `after`. -/
def PassageMark.after (m : PassageMark) (before after : Occupation) : PassageMark :=
  match m with
  | .disarmed => .disarmed
  | .armed b => .armed (b || (decide (before ≠ after) && (after == .occupied || after == .disturbed)))

/-- R3 to R5, R12: a section's record after an applied entry that changes its latest reported value. -/
def SectionImage.report (x : SectionImage) (now : Time) (v : Occupation) : SectionImage where
  held := x.heldAfter v
  latest := some v
  occupiedAt := occupiedStamp now x.held (x.heldAfter v) x.occupiedAt
  clearedAt := clearedStamp now x.held (x.heldAfter v) x.clearedAt
  mark := x.mark.after x.held (x.heldAfter v)

/-- R10: a change of a section's held detection is passed on. The RU takes the occupation at once; the FE and the LE take the change as
the event settles. R10 lists the blocks and gives them no order: that the RU is first is the model's choice (DESIGN CHOICE, log 63). -/
def State.passSection (e : Nat) (s : State) : State := (s.note (.sect e)).takeOccupation e

/-- R10, R12: an applied section entry. That a first entry lowers the outstanding count (R19), so that the device subject is marked, after
the section's own subject and before any fault is raised is the model's choice (DESIGN CHOICE, log 58). -/
def State.sectionEntry (e : Nat) (v : Occupation) (s : State) : State :=
  let x := s.sect e
  if x.latest = some v then s
  else
    let s := s.putSection e (x.report s.time v)
    let s := s.whenB x.latest.isNone State.heard
    let s := s.reassess (.element e)
    let s := if v = .disturbed then s.raiseNow .sectionDisturbed (.element e) else s
    if x.heldAfter v = x.held then s else s.passSection e

/-- R13: a section whose held detection is DISTURBED and whose latest reported value is CLEAR is restored. The change is passed on, and
the cause of SECTION_DISTURBED is then gone, in the order of the rule's sentences (DEDUCED, log 69). -/
def State.restore (e : Nat) (s : State) : State :=
  let x := s.sect e
  let s := s.putSection e { x with held := .clear, clearedAt := some s.time }
  (s.passSection e).reassess (.element e)

/-! ### Point entries (R6, R17, R18) -/

/-- R17: the change is a move away from rest: from NORMAL or REVERSE to MOVING or to the other position. -/
def leavesRest (before after : Detection) : Bool :=
  before.position.isSome && (after == .moving || after.position.isSome) && before != after

/-- R17: the FI's checks of a change of a point's detection. -/
def State.checkPoint (p : Nat) (before after : Detection) (s : State) : State :=
  if leavesRest before after && (s.throwOf p).state != .moving then
    s.raise .pointUncommandedMove (.element p) (!s.acceptable p)
  else if after == .lost && s.isHeld p then s.raiseNow .pointDetectionLost (.element p)
  else s

/-- R10: an applied point entry. The FI judges the change, and then the PMC takes it (R89, R96, R97). That the causes are reassessed (R18)
before the change is judged an uncommanded move (R17) is the model's choice (DESIGN CHOICE, log 49), and so is it that the outstanding
count falls, marking the device subject, after the point's own subject is marked and before all else (DESIGN CHOICE, log 58). That the PMC
takes the change before the LE and the FE do is the model's choice (DESIGN CHOICE, log 63). -/
def State.pointEntry (p : Nat) (d : Detection) (s : State) : State :=
  let before := s.detection p
  if before = d then s
  else
    let s := s.putDetection p d
    let s := s.whenB (before == .unknown) State.heard
    let s := s.reassess (.element p)
    (s.checkPoint p before d).takeDetection p

/-! ### Signal entries (R7, R15, R16, R57) -/

/-- R57: the proving timer of a slot stops when its entry signal is PROCEED_PROVEN. -/
def State.stopProving (g i : Nat) (s : State) : State :=
  if s.entrySignal i = some g then s.updSlot i (fun x => { x with provingTimer := .stopped }) else s

/-- R10: an applied signal entry. That a first entry lowers the outstanding count (R19), so that the device subject is marked, after the
signal's own subject and before any fault is raised is the model's choice (DESIGN CHOICE, log 58). -/
def State.signalEntry (g : Nat) (v : Proving) (s : State) : State :=
  let x := s.signal g
  if x.proving = v then s
  else
    let s := s.putSignal g { proving := v, withdrawal := if v = .stopProven then .stopped else x.withdrawal }
    let s := s.whenB (x.proving == .unknown) State.heard
    let s := s.reassess (.element g)
    let s := s.whenB (x.proving == .stopProven) (State.note (.unproved g))
    if v = .proceedProven then
      let s := if s.permission g = .stop ∧ x.withdrawal = .stopped then s.raiseNow .signalWrongSide (.element g) else s
      s.forEach slotIds (State.stopProving g)
    else s

/-- R16: a signal's withdrawal supervision expires. -/
def State.withdrawalExpired (g : Nat) (s : State) : State :=
  let x := s.signal g
  let s := s.putSignal g { x with withdrawal := .stopped }
  if x.proving = .proceedProven then s.raiseNow .signalWrongSide (.element g) else s

/-! ### Entries of a report (R8, R9, R11) -/

/-- R9, R10: one field report entry, as applied; none when it is skipped. -/
def State.fieldEntry (e kind value : Nat) (s : State) : Option State :=
  match s.defn e with
  | some (.sect _) => if kind = 1 then (sectionValue value).map (fun v => s.sectionEntry e v) else none
  | some (.point ..) => if kind = 2 then (pointValue value).map (fun d => s.pointEntry e d) else none
  | some (.signal ..) => if kind = 3 then (signalValue value).map (fun v => s.signalEntry e v) else none
  | some (.boundary ..) => none
  | none => none

/-- R11: one supply report entry, as applied; none when it is skipped. -/
def State.supplyEntry (g value : Nat) (s : State) : Option State :=
  if (s.cfg.groups.find g).isNone then none
  else match supplyValue value with
    | none => none
    | some v =>
      let before := s.supply g
      if before = v then some s
      else
        let s := s.putSupply g v
        let s := s.whenB (before == .unknown) State.heard
        some (match v with
          | .on => s.supplyReturned g
          | _ => if before = .on then s.supplyLost g else s)

/-- What a report's handling has come to: the state, the entries applied, and the index of the first skipped one. -/
structure ReportRun where
  state   : State
  applied : Nat
  skipped : Option Nat
  deriving DecidableEq, Repr

/-- R8: entries are handled one after another; the effects of each are whole before the next is handled. -/
def runEntries {α : Type} (apply : α → State → Option State) : Nat → List α → ReportRun → ReportRun
  | _, [], run => run
  | k, a :: rest, run =>
    match apply a run.state with
    | some s => runEntries apply (k + 1) rest { run with state := s.settle, applied := run.applied + 1 }
    | none => runEntries apply (k + 1) rest { run with skipped := run.skipped.or (some k) }

/-! ### Set-up (R19, R20) -/

/-- R19: the number of defined sections, points and signals, plus the number of defined groups. -/
def Configuration.outstanding (c : Configuration) : Nat :=
  (c.elements.entries.filter (fun p => match p.2 with
    | .boundary .. => false
    | _ => true)).length + c.groups.size

/-- R20: the field image in the restart state. -/
def Configuration.fieldImage (c : Configuration) : FieldImage := { outstanding := c.outstanding }

end Sys2Proof.Machine
end

