-- ==== Sys2Proof/Machine/Flags.lean ====
section
/-! DEFINITION. The codes and flag bytes of host frames, reports and telegrams (11_record_and_telegram_formats.md, R178 and
11.5), with the refusal reasons and field names. -/

namespace Sys2Proof.Machine

/-! ### Flag bytes and absent values (R178) -/

/-- One flag at a bit place. -/
def bit (place : Nat) (b : Bool) : Nat := if b then 2 ^ place else 0

/-- A flag byte, from bit 0 upward. -/
def flagByte (flags : List Bool) : Nat := (flags.zipIdx.map (fun p => bit p.2 p.1)).sum

/-- An id of one byte that may be absent. -/
def id1 (n : Option Nat) : List Byte := bytes1 (n.getD 255)
/-- An id of two bytes that may be absent. -/
def id2 (n : Option Nat) : List Byte := bytes2 (n.getD 65535)
/-- A time stamp that may be absent. -/
def stamp5 (t : Option Time) : List Byte := match t with
  | some x => 1 :: bytes4 x.toNat
  | none => 0 :: bytes4 0
/-- A device time or time stamp that is always present. -/
def time4 (t : Time) : List Byte := bytes4 t.toNat
/-- A timer as its remaining time; all ones when stopped. -/
def Timer.bytes (t : Timer) (now : Time) : List Byte := match t with
  | .running d => bytes4 (Time.remaining now d)
  | .stopped => bytes4 4294967295

/-! ### Codes (R178) -/

/-- The code of an element's kind. -/
def ElementDef.kindCode : ElementDef → Nat
  | .sect _ => 1
  | .point .. => 2
  | .signal .. => 3
  | .boundary .. => 4

/-- The code of a section detection. -/
def Occupation.code : Occupation → Nat
  | .unknown => 0
  | .clear => 1
  | .occupied => 2
  | .disturbed => 3

/-- The code of a point detection. -/
def Detection.code : Detection → Nat
  | .unknown => 0
  | .normal => 1
  | .reverse => 2
  | .moving => 3
  | .lost => 4

/-- The code of a signal proving. -/
def Proving.code : Proving → Nat
  | .unknown => 0
  | .stopProven => 1
  | .proceedProven => 2
  | .notProven => 3

/-- The code of a permission. -/
def Permission.code : Permission → Nat
  | .stop => 0
  | .proceed => 1

/-- The code of a supply state. -/
def Supply.code : Supply → Nat
  | .unknown => 0
  | .on => 1
  | .off => 2

/-- The code of a role. -/
def Role.code : Role → Nat
  | .exit => 1
  | .entry => 2
  | .both => 3

/-- The code of a slot state. -/
def SlotState.code : SlotState → Nat
  | .free => 0
  | .pending => 1
  | .locked => 2
  | .opened => 3
  | .passing => 4
  | .approachLocked => 5
  | .timedRelease => 6
  | .awaitReleased => 7

/-- The flag byte of commit needs. -/
def Needs.code (n : Needs) : Nat := flagByte [n.group, n.acceptance, n.flank]

/-- The flag byte of waiting reasons. -/
def Waiting.code (w : Waiting) : Nat :=
  flagByte [w.points, w.flank, w.signalFlankHeld, w.sections, w.boundary, w.link, w.mode, w.proving]

/-- The code of a drop reason. -/
def DropReason.code : DropReason → Nat
  | .cancelled => 1
  | .groupCancelled => 2
  | .timeout => 3
  | .refused => 4
  | .offerTimeout => 5
  | .flankUnavailable => 6
  | .linkDown => 7
  | .directionConflict => 8

/-- The code of a release reason. -/
def ReleaseReason.code : ReleaseReason → Nat
  | .cancelled => 1
  | .passed => 9
  | .approachExpired => 10
  | .emergency => 11

/-- The codes of a last outcome and of its reason. -/
def LastOutcome.codes : LastOutcome → Nat × Nat
  | .none => (0, 0)
  | .dropped r => (1, r.code)
  | .released r => (2, r.code)

/-- The code of a lock kind. -/
def LockKind.code : LockKind → Nat
  | .path => 1
  | .overlap => 2

/-- The code of a requirement state. -/
def ReqState.code : ReqState → Nat
  | .held => 1
  | .asked => 2
  | .lost => 3
  | .released => 4

/-- The code of a throw state. -/
def ThrowState.code : ThrowState → Nat
  | .atRest => 0
  | .queued => 1
  | .moving => 2
  | .faulted => 3

/-- The code of a point's fault reason; 0 when absent. -/
def ThrowFault.code : Option ThrowFault → Nat
  | none => 0
  | some .throwTimeout => 1
  | some .detectionLost => 2
  | some .supplyTimeout => 3

/-- The code of a throw timer's state. -/
def ThrowTimer.code : ThrowTimer → Nat
  | .stopped => 0
  | .running _ => 1
  | .paused _ => 2

/-- A throw timer's remaining time. -/
def ThrowTimer.bytes (t : ThrowTimer) (now : Time) : List Byte := match t with
  | .stopped => bytes4 4294967295
  | .running d => bytes4 (Time.remaining now d)
  | .paused r => bytes4 r

/-- The code of a passage mark. -/
def PassageMark.code : PassageMark → Nat
  | .disarmed => 0
  | .armed false => 1
  | .armed true => 2

/-- The code of an overlap state. -/
def OverlapState.code : OverlapState → Nat
  | .none => 0
  | .held => 1
  | .timing => 2
  | .released => 3

/-- The code of an approach method; 0 when absent. -/
def ApproachMethod.code : Option ApproachMethod → Nat
  | none => 0
  | some .computed => 1
  | some .fixed => 2

/-- The code of an offer state. -/
def offerCode (o : Option OutgoingOffer) : Nat := match o with
  | none => 0
  | some x => if x.accepted then 2 else 1

/-- The code of a link state. -/
def LinkState.code : LinkState → Nat
  | .disabled => 0
  | .down => 1
  | .proving => 2
  | .up => 3
  | .suspect => 4

/-- The code of a fault class. -/
def FaultClass.code : FaultClass → Nat
  | .minor => 1
  | .major => 2
  | .critical => 3

/-- The code of a fault record's state; an empty place is 0. -/
def RecordState.code : RecordState → Nat
  | .active => 1
  | .acked => 2
  | .cleared => 3

/-- The code of a fault kind: its place in the table of 9.2. -/
def FaultKind.code : FaultKind → Nat
  | .pointThrowTimeout => 1
  | .pointDetectionLost => 2
  | .pointUncommandedMove => 3
  | .supplyTimeout => 4
  | .signalNotProven => 5
  | .signalWrongSide => 6
  | .unexpectedOccupancy => 7
  | .unauthorisedPassing => 8
  | .sectionDisturbed => 9
  | .flankLost => 10
  | .linkDown => 11
  | .directionConflict => 12
  | .hostSilent => 13
  | .hostSilentLong => 14

/-- The code of a subject's kind. -/
def Subject.kindCode : Subject → Nat
  | .element _ => 1
  | .slot _ => 2
  | .link _ => 3
  | .faultIndex _ => 4
  | .boundary _ => 5
  | .device => 6
  | .group _ => 7

/-- The id of a subject; absent for the device. -/
def Subject.id : Subject → Option Nat
  | .element n | .slot n | .link n | .faultIndex n | .boundary n | .group n => some n
  | .device => none

/-- The code of a reply's outcome. -/
def ReplyOutcome.code : ReplyOutcome → Nat
  | .done => 1
  | .accepted => 2
  | .refused => 3

/-- The code of an auxiliary kind. -/
def AuxKind.code : AuxKind → Nat
  | .restoreSection => 1
  | .emergencyRelease => 2
  | .releaseGivenFlank => 3
  | .resume => 4
  | .restart => 5

/-- The auxiliary kind with a code. -/
def AuxKind.ofCode (c : Nat) : Option AuxKind :=
  [AuxKind.restoreSection, .emergencyRelease, .releaseGivenFlank, .resume, .restart].find? (fun k => k.code == c)

/-- The position with a code. -/
def Position.ofCode (c : Nat) : Option Position := if c = 1 then some .normal else if c = 2 then some .reverse else none

/-- The code of a position. -/
def Position.code : Position → Nat
  | .normal => 1
  | .reverse => 2

/-- The route class with a code. -/
def RouteClass.ofCode (c : Nat) : Option RouteClass :=
  if c = 1 then some .main else if c = 2 then some .shunt else if c = 3 then some .entry else none

/-- The role with a code. -/
def Role.ofCode (c : Nat) : Option Role :=
  if c = 1 then some .exit else if c = 2 then some .entry else if c = 3 then some .both else none

/-! ### Refusals (11.5) -/

/-- Refusal reasons. -/
inductive Reason where
  | mode | unknownKind | unknownRoute | notFound | badField | badState | noSlot | entryBusy | conflict | pointUnavailable
  | flankUnavailable | direction | linkDown | authority | noPrepare | queueFull | configMismatch | configReference
  deriving DecidableEq, Repr

/-- The code of a refusal reason. -/
def Reason.code : Reason → Nat
  | .mode => 1
  | .unknownKind => 2
  | .unknownRoute => 3
  | .notFound => 4
  | .badField => 5
  | .badState => 6
  | .noSlot => 7
  | .entryBusy => 8
  | .conflict => 9
  | .pointUnavailable => 10
  | .flankUnavailable => 11
  | .direction => 12
  | .linkDown => 13
  | .authority => 14
  | .noPrepare => 15
  | .queueFull => 16
  | .configMismatch => 17
  | .configReference => 18

/-- Field names of refusals. -/
inductive Field where
  | noName | length | routeId | cls | entry | exit | path | points | overlap | overlapSections | overlapPoints | overlapTime
  | flank | approach | vmax | deceleration | reaction | fixedTime | elementId | kind | sectionLength | containingSection
  | powerGroup | ownLimit | link | role | remoteId | adjacentSection | period | los | inLock | outLock | answer | senior
  | group | limit | silence
  | param (code : Nat)
  deriving DecidableEq, Repr

/-- The code of a field name. -/
def Field.code : Field → Nat
  | .noName => 0
  | .length => 1
  | .routeId => 2
  | .cls => 3
  | .entry => 4
  | .exit => 5
  | .path => 6
  | .points => 7
  | .overlap => 8
  | .overlapSections => 9
  | .overlapPoints => 10
  | .overlapTime => 11
  | .flank => 12
  | .approach => 13
  | .vmax => 14
  | .deceleration => 15
  | .reaction => 16
  | .fixedTime => 17
  | .elementId => 20
  | .kind => 21
  | .sectionLength => 22
  | .containingSection => 23
  | .powerGroup => 24
  | .ownLimit => 25
  | .link => 26
  | .role => 27
  | .remoteId => 28
  | .adjacentSection => 29
  | .period => 31
  | .los => 32
  | .inLock => 33
  | .outLock => 34
  | .answer => 35
  | .senior => 36
  | .group => 40
  | .limit => 41
  | .silence => 61
  | .param c => 50 + c

/-- A failed check: the field, the entry index and the candidate index (R21). -/
structure Failure where
  field     : Field
  entry     : Nat := 0
  candidate : Nat := 0
  deriving DecidableEq, Repr

/-- The data of a BAD_FIELD refusal (R179). -/
def Failure.bytes (f : Failure) : List Byte := bytes1 f.field.code ++ bytes1 f.entry ++ bytes1 f.candidate

end Sys2Proof.Machine
end

