-- ==== Sys2Proof/Machine/Reports.lean ====
section
/-! DEFINITION. The bytes the part sends: report bodies (R180), reply frames (R179) and telegrams (R181). -/

namespace Sys2Proof.Machine

/-! ### Report bodies (R180) -/

/-- The lock fields of an element report: holder, kind, firmness. -/
def lockBytes (l : Option Lock) : List Byte := match l with
  | none => id1 none ++ bytes1 0 ++ bytes1 0
  | some x => id1 (some x.holder) ++ bytes1 x.kind.code ++ bytes1 (if x.firm then 2 else 1)

/-- The claim fields of an element report: required state and count, one byte each (DESIGN CHOICE for the count, log 25). -/
def claimBytes (c : Option Claim) : List Byte := match c with
  | none => bytes1 0 ++ bytes1 0
  | some x => bytes1 x.required.code ++ bytes1 x.count

/-- An own limit; 0 when absent (log 25). -/
def ownLimitBytes (n : Option Nat) : List Byte := bytes2 (n.getD 0)

/-- ELEMENT_STATE, after the time and the element id. -/
def State.elementBody (s : State) (e : Nat) : List Byte := match s.defn e with
  | none => []
  | some d => bytes1 d.kindCode ++ (match d with
    | .sect len =>
      let x := s.sect e
      bytes2 len ++ bytes1 x.held.code ++ bytes1 ((x.latest.map Occupation.code).getD 0) ++ stamp5 x.occupiedAt
        ++ stamp5 x.clearedAt ++ bytes1 x.mark.code ++ lockBytes (s.lock e)
    | .point within group guarded individual own =>
      let t := s.throwOf e
      bytes2 within ++ bytes1 group ++ bytes1 (flagByte [guarded, individual]) ++ ownLimitBytes own
        ++ bytes1 (s.detection e).code ++ lockBytes (s.lock e)
        ++ bytes1 (((s.lockPosition e).map Position.code).getD 0) ++ claimBytes (s.claim e) ++ bytes1 t.state.code
        ++ bytes1 ((t.order.map (fun o => o.target.code)).getD 0)
        ++ bytes1 (flagByte [(t.order.map Order.demand).getD false, t.state == .moving])
        ++ bytes1 t.timer.code ++ t.timer.bytes s.time ++ bytes1 (ThrowFault.code t.reason)
    | .signal individual own =>
      let x := s.signal e
      bytes1 (flagByte [false, individual]) ++ ownLimitBytes own ++ bytes1 x.proving.code ++ bytes1 (s.permission e).code
        ++ x.withdrawal.bytes s.time ++ claimBytes (s.claim e)
    | .boundary l remote role adjacent => bytes1 l ++ bytes2 remote ++ bytes1 role.code ++ bytes2 adjacent)

/-- The nine bytes of one requirement of a ROUTE_STATE. The ask reference is that of a remote candidate. An absent candidate index is sent
as 0xFF (DESIGN CHOICE, log 25). -/
def State.requirementBytes (s : State) (i j : Nat) : List Byte := match s.requirement i j with
  | none => []
  | some q =>
    bytes1 q.state.code ++ id1 q.candidate ++ bytes1 (flagByte [q.firm, q.satisfied, q.deferred])
      ++ id2 (match s.chosen i j with
        | some (.remote ..) => some (askReference i j)
        | _ => none)
      ++ q.answer.bytes s.time

/-- ROUTE_STATE, after the time and the slot id. -/
def State.slotBody (s : State) (i : Nat) : List Byte :=
  let x := s.slot i
  let r := x.rel
  bytes1 x.state.code ++ id2 x.route ++ id1 x.group ++ bytes1 x.needs.code ++ bytes1 x.waiting.code
    ++ bytes1 (flagByte [x.hasBeenOpened, r.clearedBehind, r.speedClamped, r.timeClamped])
    ++ stamp5 x.pendingSince ++ x.pendingTimer.bytes s.time ++ x.provingTimer.bytes s.time
    ++ bytes1 (offerCode ((s.offerOf i).map Prod.snd)) ++ bytes1 x.lastOutcome.codes.1 ++ bytes1 x.lastOutcome.codes.2
    ++ bytes1 (x.neighbourReason.getD 0) ++ stamp5 r.passedAt ++ bytes1 r.released ++ bytes1 r.overlap.code
    ++ r.overlapTimer.bytes s.time ++ bytes1 (ApproachMethod.code r.method)
    ++ id2 (r.measurement.map Measurement.first) ++ id2 (r.measurement.map Measurement.second)
    ++ bytes4 ((r.measurement.map Measurement.dt).getD 0) ++ bytes2 (r.vUsed.getD 0) ++ bytes2 (r.releaseTime.getD 0)
    ++ r.approachTimer.bytes s.time ++ r.emergencyTimer.bytes s.time ++ bytes1 x.requirements.length
    ++ (s.requirementIds i).flatMap (s.requirementBytes i)

/-- One given claim of a LINK_STATE. -/
def givenBytes (c : GivenClaim) : List Byte :=
  bytes2 c.reference ++ bytes2 c.element ++ bytes1 c.required.code ++ bytes1 (flagByte [c.given, c.withdrawn])

/-- The code of a link's senior flag: SENIOR 1, JUNIOR 2; 0 for a link that is not defined. -/
def State.seniorCode (s : State) (l : Nat) : Nat := match s.cfg.links.find l with
  | some p => if p.senior then 1 else 2
  | none => 0

/-- LINK_STATE, after the time and the link id. Its runs are one byte each (DESIGN CHOICE, log 25). -/
def State.linkBody (s : State) (l : Nat) : List Byte :=
  let k := s.link l
  let p := s.linkParams l
  let c := k.counters
  bytes1 k.state.code ++ bytes2 p.period ++ bytes2 p.los ++ bytes1 p.inLock ++ bytes1 p.outLock ++ bytes2 p.answer
    ++ bytes1 (s.seniorCode l) ++ bytes2 c.good ++ bytes2 c.crc ++ bytes2 c.length ++ bytes2 c.byte ++ bytes2 c.gaps
    ++ bytes2 c.mismatch ++ bytes2 c.unknown ++ [k.txSeq] ++ id2 (k.lastSeq.map BitVec.toNat) ++ [k.outProbe]
    ++ [k.expProbe] ++ bytes1 k.cleanRun ++ bytes1 k.goodRun ++ bytes1 k.badRun ++ bytes1 k.queue.length
    ++ id1 k.neighbourMode ++ bytes2 k.retiredAsks.length ++ bytes1 k.retiredOffers.length ++ bytes1 k.given.length
    ++ k.given.flatMap givenBytes

/-- BOUNDARY_STATE, after the time and the element id. -/
def State.boundaryBody (s : State) (e : Nat) : List Byte :=
  let b := s.boundary e
  bytes1 (if s.roleOf e = some .both then b.direction.code else 0) ++ b.dirTimer.bytes s.time ++ bytes1 (offerCode b.outgoing)
    ++ id1 (b.outgoing.map OutgoingOffer.slot)
    ++ stamp5 (match b.outgoing with
      | some o => o.sentAt
      | none => none)
    ++ (match b.outgoing with
      | some o => o.answer
      | none => Timer.stopped).bytes s.time
    ++ id1 (b.incoming.map IncomingOffer.reference) ++ bytes1 ((b.incoming.map IncomingOffer.cls).getD 0)
    ++ id1 b.entrySlot ++ id1 b.awaited ++ id1 b.releasedPending
    ++ bytes1 (flagByte [(b.outgoing.map OutgoingOffer.deferred).getD false, (b.incoming.map IncomingOffer.accepted).getD false,
      b.occupiedBeyond])

/-- The fields of one power group in a DEVICE_STATE. The moving count is one byte, and the limit of a group that is not defined is sent as
0 (DESIGN CHOICE, log 25). -/
def State.groupBytes (s : State) (g : Nat) : List Byte :=
  bytes1 (if (s.cfg.groups.find g).isSome then (s.supply g).code else 255) ++ bytes1 (s.groupLimit g)
    ++ bytes1 (s.movingCount g) ++ bytes1 (s.powerGroup g).queue.length ++ (s.powerGroup g).lossTimer.bytes s.time

/-- DEVICE_STATE, after the time. The MAJOR count and MAJOR_LIMIT are one byte each (DESIGN CHOICE, log 25). -/
def State.deviceBody (s : State) : List Byte :=
  bytes1 s.su.mode.code ++ bytes1 (flagByte [s.su.enableOut, s.su.overflow]) ++ bytes1 s.majorCount
    ++ bytes1 s.cfg.params.majorLimit ++ bytes2 s.field.outstanding ++ groupIds.flatMap s.groupBytes
    ++ (match s.host.preparation with
      | none => bytes1 0 ++ id2 none ++ bytes4 4294967295
      | some p => bytes1 p.kind.code ++ bytes2 p.subject ++ bytes4 (Time.remaining s.time p.deadline))
    ++ Param.all.flatMap (fun p => bytes4 (s.cfg.params.get p))
    ++ bytes2 s.host.counters.good ++ bytes2 s.host.counters.crc ++ bytes2 s.host.counters.length
    ++ bytes2 s.host.counters.byte ++ bytes2 s.host.counters.queueFull

/-- FAULT_STATE, after the time and the index. Every byte after the state is 0 for an empty place. -/
def State.faultBody (s : State) (i : Nat) : List Byte := match s.su.faults.find i with
  | none => List.replicate 12 0
  | some r => bytes1 r.state.code ++ bytes1 r.kind.code ++ bytes1 r.kind.cls.code ++ bytes1 r.subject.kindCode ++ id2 r.subject.id
      ++ time4 r.raisedAt ++ bytes2 r.count

/-- The kind of a subject's report (R180). A power group is the subject of faults alone, and has no report. -/
def Subject.reportKind : Subject → Byte
  | .element _ => 0x81
  | .slot _ => 0x82
  | .link _ => 0x83
  | .boundary _ => 0x84
  | .device | .group _ => 0x85
  | .faultIndex _ => 0x86

/-- A report's body: the device time, the subject's id except for the device, and its fields (R180). -/
def State.reportBody (s : State) (sub : Subject) : List Byte :=
  time4 s.time ++ (match sub with
    | .element e => bytes2 e ++ s.elementBody e
    | .slot i => bytes1 i ++ s.slotBody i
    | .link l => bytes1 l ++ s.linkBody l
    | .boundary e => bytes2 e ++ s.boundaryBody e
    | .faultIndex i => bytes1 i ++ s.faultBody i
    | .device | .group _ => s.deviceBody)

/-! ### Frames on the transmit line (R179) -/

/-- A reply's body: outcome, reason, the request's kind byte, data. -/
def Reply.body (r : Reply) : List Byte := bytes1 r.outcome.code ++ bytes1 r.reason ++ [r.kind] ++ r.data

/-- The bytes of a frame on the transmit line. -/
def LineFrame.bytes : LineFrame → List Byte
  | .reply r => encodeFrame ⟨0x80, r.tag, some 0, r.body⟩
  | .report kind body => encodeFrame ⟨kind, 0, some 0, body⟩

/-! ### Telegrams (R181) -/

/-- The code of a telegram's kind (R181). -/
def Telegram.code : Telegram → Byte
  | .state _ => 0x01
  | .probe .. => 0x02
  | .offer .. => 0x10
  | .accept _ => 0x11
  | .refuse .. => 0x12
  | .withdraw _ => 0x13
  | .released _ => 0x14
  | .occupiedBeyond _ => 0x18
  | .clearedBehind _ => 0x19
  | .flankAsk .. => 0x20
  | .flankGiven _ => 0x21
  | .flankRefused _ => 0x22
  | .flankWithdrawn _ => 0x23
  | .flankRelease _ => 0x24
  | .dirAsk _ => 0x28
  | .dirGive _ => 0x29
  | .dirDeny _ => 0x2A

/-- One boundary element entry of a STATE body. -/
def stateEntryBytes (e : StateEntry) : List Byte :=
  bytes2 e.element ++ bytes1 e.claim ++ bytes1 (flagByte [e.offerPresent, e.acceptanceGiven, e.occupiedBeyond])

/-- A STATE body. -/
def stateBodyBytes (b : StateBody) : List Byte :=
  bytes1 b.mode ++ bytes1 b.asks.length ++ b.asks.flatMap bytes2 ++ bytes1 b.given.length ++ b.given.flatMap bytes2
    ++ bytes1 b.entries.length ++ b.entries.flatMap stateEntryBytes

/-- A telegram's body (R181). -/
def Telegram.body : Telegram → List Byte
  | .state b => stateBodyBytes b
  | .probe n pattern => n :: pattern
  | .offer e r c => bytes2 e ++ bytes1 r ++ bytes1 c
  | .accept r | .withdraw r | .released r => bytes1 r
  | .refuse r reason => bytes1 r ++ bytes1 reason
  | .occupiedBeyond e | .clearedBehind e | .dirAsk e | .dirGive e | .dirDeny e => bytes2 e
  | .flankAsk r e q => bytes2 r ++ bytes2 e ++ bytes1 q
  | .flankGiven r | .flankRefused r | .flankWithdrawn r | .flankRelease r => bytes2 r

/-- A telegram as bytes: delimiter, length, kind, sequence, body and CRC (R181). -/
def telegramBytes (seq : Byte) (t : Telegram) : List Byte :=
  let counted := loByte (t.body.length + 6) :: t.code :: seq :: t.body
  telegramDelimiter :: (counted ++ crc16Bytes counted)

end Sys2Proof.Machine
end

