-- ==== Sys2Proof/Machine/HostLink.lean ====
section
/-! DEFINITION. The Host Link Controller: receiving frames, the request queue, handing requests on, replies and the transmit
line (10_host_link_configuration_and_start_up.md, R165 to R169). -/

namespace Sys2Proof.Machine

/-! ### The transmit line (R168, R169) -/

/-- R168: with the line idle, the next frame begins: the oldest reply, or else the report of the subject at the head of the
report queue, with its content taken now. -/
def State.serveLine (s : State) : State :=
  match s.host.line with
  | some _ => s
  | none =>
    match s.host.replies with
    | r :: rest => { s with host := { s.host with line := some (.reply r), replies := rest } }
    | [] => match s.reports with
      | sub :: rest =>
        let frame : LineFrame := .report sub.reportKind (s.reportBody sub)
        { s with host := { s.host with line := some frame }, reports := rest }
      | [] => s

/-- The end of an event: its cascade is settled, and an idle line is served. -/
def State.finish (s : State) : State := s.settle.serveLine

/-- R168: a frame has finished leaving. -/
def State.lineFree (s : State) : State := ({ s with host := { s.host with line := none } }).serveLine

/-! ### Requests (R166, R167) -/

/-- What an owning block makes of a request: the state, the outcome, the refusal code or 0, and the data. -/
structure Answer where
  state   : State
  outcome : ReplyOutcome
  reason  : Nat := 0
  data    : List Byte := []
  deriving DecidableEq, Repr

/-- A refusal changes nothing but what `s` already holds. -/
def refuse (s : State) (r : Reason) (data : List Byte := []) : Answer := ⟨s, .refused, r.code, data⟩

/-- A refusal of a field (R179). -/
def badField (s : State) (f : Failure) : Answer := refuse s .badField f.bytes

/-- A body whose length is wrong (R179). -/
def badLength (s : State) : Answer := badField s ⟨.length, 0, 0⟩

/-- An outcome of DONE. -/
def done (s : State) (data : List Byte := []) : Answer := ⟨s, .done, 0, data⟩

/-- An outcome of ACCEPTED. -/
def accepted (s : State) (data : List Byte := []) : Answer := ⟨s, .accepted, 0, data⟩

/-- R167: the request whose reply has been made leaves the queue. A command that stands for no queued frame leaves the queue as it
is (log 9). -/
def State.dequeue (f : HostFrame) (s : State) : State :=
  match s.host.requests with
  | g :: rest => if f = g then { s with host := { s.host with requests := rest } } else s
  | [] => s

/-- R166: a reply joins the reply list. -/
def State.addReply (r : Reply) (s : State) : State := { s with host := { s.host with replies := s.host.replies ++ [r] } }

/-- R167: a request may be handed on while fewer than 16 replies wait. -/
def State.mayHandOn (s : State) : Bool := decide (s.host.replies.length < Config.replyGate)

/-- R166 to R168: the end of a request's handling: its cascade is settled, its reply is made, it leaves the queue, and an idle line
is served. -/
def State.replied (f : HostFrame) (r : Reply) (s : State) : State := ((s.settle.addReply r).dequeue f).serveLine

/-- R166: the reply to a request, from its owner's answer. -/
def Answer.reply (a : Answer) (f : HostFrame) : Reply := ⟨f.tag, a.outcome, a.reason, f.kind, a.data⟩

/-- R166, R167: a request is handled by its owner as one event, its reply is made, and it leaves the queue. While 16 or more
replies wait, no request is handed on. -/
def State.serve (f : HostFrame) (owner : State → Answer) (s : State) : State :=
  if s.mayHandOn then (owner s).state.replied f ((owner s).reply f) else s

/-- The frame a request came in (R179). -/
def requestFrame (kind : Byte) (rq : Request) : HostFrame := ⟨kind, rq.tag, some rq.authority.code, rq.body⟩

/-- The frame of a CONFIRM_AUX for a kind and a subject (R161, R179). -/
def confirmFrame (h : Header) (k : AuxKind) (subject : Nat) : HostFrame :=
  ⟨0x42, h.tag, some h.authority.code, loByte k.code :: bytes2 subject⟩

/-- A block takes the request in the modes from STARTUP on; in the others it is refused with MODE. -/
def inService (s : State) (owner : State → Answer) : Answer := if s.su.mode.inService then owner s else refuse s .mode

/-! ### Frames (R165, R166) -/

/-- R165: a bad frame raises its counter. A byte error while hunting raises the byte-error counter. -/
def HostCounters.error (c : HostCounters) : ReceiveError → HostCounters
  | .crc => { c with crc := bump c.crc }
  | .length => { c with length := bump c.length }
  | .byte | .hunting => { c with byte := bump c.byte }

/-- R165: a bad frame is counted and discarded. -/
def State.badFrame (e : ReceiveError) (s : State) : State :=
  { s with host := { s.host with counters := s.host.counters.error e } }

/-- R166: a frame joins the request queue, or is refused with QUEUE_FULL. -/
def State.enqueue (f : HostFrame) (s : State) : State :=
  if s.host.requests.length < Config.requestPlaces then
    { s with host := { s.host with requests := s.host.requests ++ [f] } }
  else
    let s := { s with host := { s.host with counters := { s.host.counters with queueFull := bump s.host.counters.queueFull } } }
    if s.host.replies.length < Config.replyPlaces then
      s.addReply ⟨f.tag, .refused, Reason.queueFull.code, f.kind, []⟩
    else s

/-- R165, R166: a good frame is counted, passed to the SU, and offered to the request queue. -/
def State.goodFrame (f : HostFrame) (s : State) : State :=
  (({ s with host := { s.host with counters := { s.host.counters with good := bump s.host.counters.good } } }).goodHostFrame).enqueue f

end Sys2Proof.Machine
end

