-- ==== Sys2Proof/Machine/Operands.lean ====
section
/-! DEFINITION. The operands of requests: how each body is read, and the checks a definition record passes by itself (R1, R21 to
R28, R118, R172, R179). -/

namespace Sys2Proof.Machine

/-! ### Reading a body -/

/-- One byte. -/
def read1 : List Byte → Option (Nat × List Byte)
  | b :: rest => some (b.toNat, rest)
  | [] => none

/-- Two bytes, most significant first. -/
def read2 : List Byte → Option (Nat × List Byte)
  | a :: b :: rest => some (num2 a b, rest)
  | _ => none

/-- `n` numbers of two bytes. -/
def readMany : Nat → List Byte → Option (List Nat × List Byte)
  | 0, l => some ([], l)
  | n + 1, l => do
    let (x, l) ← read2 l
    let (xs, l) ← readMany n l
    pure (x :: xs, l)

/-- A count of one byte and that many numbers of two bytes. -/
def readList (l : List Byte) : Option (List Nat × List Byte) := do
  let (n, l) ← read1 l
  readMany n l

/-- The element id of an element word: its low 14 bits (R178). -/
def wordId (w : Nat) : Nat := w % 16384
/-- The qualifier of an element word: its top 2 bits (R178). -/
def wordQualifier (w : Nat) : Nat := w / 16384

/-- An id of an element. -/
def elementId (n : Nat) : Bool := decide (n ≤ 399)

/-- A body of one byte. -/
def body1 : List Byte → Option Nat
  | [a] => some a.toNat
  | _ => none

/-- A body of two bytes that hold one number. -/
def body2 : List Byte → Option Nat
  | [a, b] => some (num2 a b)
  | _ => none

/-- A body of a two-byte number and a byte (SET_ROUTE, POINT_THROW). -/
def body21 : List Byte → Option (Nat × Nat)
  | [a, b, c] => some (num2 a b, c.toNat)
  | _ => none

/-- A body of a byte and a two-byte number (QUERY, PREPARE_AUX, CONFIRM_AUX). -/
def body12 : List Byte → Option (Nat × Nat)
  | [a, b, c] => some (a.toNat, num2 b c)
  | _ => none

/-- The entries of a field report: element id, kind, value; none when the body is not a whole number of entries. -/
def fieldEntries : List Byte → Option (List (Nat × Nat × Nat))
  | [] => some []
  | a :: b :: k :: v :: rest => (fieldEntries rest).map (fun l => (num2 a b, k.toNat, v.toNat) :: l)
  | _ => none

/-- The entries of a supply report: group id, value. -/
def supplyEntries : List Byte → Option (List (Nat × Nat))
  | [] => some []
  | g :: v :: rest => (supplyEntries rest).map (fun l => (g.toNat, v.toNat) :: l)
  | _ => none

/-- The entries of a GLOBAL_PARAMS: parameter code, value. -/
def paramEntries : List Byte → Option (List (Nat × Nat))
  | [] => some []
  | c :: w :: x :: y :: z :: rest => (paramEntries rest).map (fun l => (c.toNat, num4 w x y z) :: l)
  | _ => none

/-! ### Checks one after another -/

/-- A check: its failure, or none when it passes. -/
def check (ok : Bool) (f : Failure) : Option Failure := if ok then none else some f

/-- The first failure of checks made in order. -/
def firstFailure : List (Option Failure) → Option Failure
  | [] => none
  | some f :: _ => some f
  | none :: rest => firstFailure rest

/-! ### ELEMENT_DEF (R1) -/

/-- The own limit a record gives: absent when 0. -/
def ownLimit (n : Nat) : Option Nat := if n = 0 then none else some n

/-- R1: the own limit agrees with the individual flag and with its range. -/
def ownLimitOk (individual : Bool) (n least greatest : Nat) : Bool :=
  if individual then decide (least ≤ n ∧ n ≤ greatest) else n == 0

/-- A flag of a flag byte. -/
def flagAt (b : Byte) (place : Nat) : Bool := b.getLsbD place

/-- R1: the fields of an element definition, from the bytes after the id and the kind. The length is checked right after the kind
(R179). -/
def elementFields (kind : Nat) (rest : List Byte) : Except Failure ElementDef :=
  match kind with
  | 1 => match rest with
    | [a, b] =>
      if 1 ≤ num2 a b ∧ num2 a b ≤ 4095 then .ok (.sect (num2 a b)) else .error ⟨.sectionLength, 0, 0⟩
    | _ => .error ⟨.length, 0, 0⟩
  | 2 => match rest with
    | [a, b, g, f, c, d] =>
      if 7 < g.toNat then .error ⟨.powerGroup, 0, 0⟩
      else if ownLimitOk (flagAt f 1) (num2 c d) 1000 30000 then
        .ok (.point (num2 a b) g.toNat (flagAt f 0) (flagAt f 1) (ownLimit (num2 c d)))
      else .error ⟨.ownLimit, 0, 0⟩
    | _ => .error ⟨.length, 0, 0⟩
  | 3 => match rest with
    | [f, c, d] =>
      if ownLimitOk (flagAt f 1) (num2 c d) 500 10000 then .ok (.signal (flagAt f 1) (ownLimit (num2 c d)))
      else .error ⟨.ownLimit, 0, 0⟩
    | _ => .error ⟨.length, 0, 0⟩
  | 4 => match rest with
    | [l, a, b, r, c, d] =>
      if 3 < l.toNat then .error ⟨.link, 0, 0⟩
      else match Role.ofCode r.toNat with
        | none => .error ⟨.role, 0, 0⟩
        | some role =>
          if elementId (num2 a b) then .ok (.boundary l.toNat (num2 a b) role (num2 c d)) else .error ⟨.remoteId, 0, 0⟩
    | _ => .error ⟨.length, 0, 0⟩
  | _ => .error ⟨.kind, 0, 0⟩

/-- R1: the number of definitions of the table that satisfy a test. -/
def countDefs (t : Table ElementDef) (f : ElementDef → Bool) : Nat := (t.entries.filter (fun p => f p.2)).length

/-- R1: storing the record keeps every capacity. -/
def capacityOk (t : Table ElementDef) (e : Nat) (d : ElementDef) : Bool :=
  let t := t.put e d
  match d with
  | .sect _ => true
  | .point .. => decide (countDefs t (fun x => x.kindCode == 2) ≤ 128)
  | .signal .. => decide (countDefs t (fun x => x.kindCode == 3) ≤ 96)
  | .boundary l _ _ _ =>
    decide (countDefs t (fun x => match x with
      | .boundary m _ _ _ => m == l
      | _ => false) ≤ 8) && decide (countDefs t (fun x => x.kindCode == 4) ≤ 32)

/-- R1: an ELEMENT_DEF body, with the id and the definition it stores. -/
def readElement (t : Table ElementDef) (body : List Byte) : Except Failure (Nat × ElementDef) :=
  match body with
  | a :: b :: k :: rest =>
    if elementId (num2 a b) then
      match elementFields k.toNat rest with
      | .error f => .error f
      | .ok d => if capacityOk t (num2 a b) d then .ok (num2 a b, d) else .error ⟨.kind, 0, 0⟩
    else .error ⟨.elementId, 0, 0⟩
  | _ => .error ⟨.length, 0, 0⟩

/-! ### ROUTE_DEF (R21 to R28) -/

/-- A ROUTE_DEF body as its lists declare it, before any check. Points and overlap points are element words; a flank requirement is
an element word and its candidates, each a kind byte and an element word. -/
structure RawRoute where
  id         : Nat
  cls        : Nat
  entry      : Nat
  exit       : Nat
  path       : List Nat
  points     : List Nat
  overlap    : Nat
  ovSections : List Nat
  ovPoints   : List Nat
  ovTime     : Nat
  flank      : List (Nat × List (Nat × Nat))
  approach   : List Nat
  vmax       : Nat
  decel      : Nat
  reaction   : Nat
  fixedTime  : Nat
  deriving DecidableEq, Repr

/-- `n` candidates. -/
def readCandidates : Nat → List Byte → Option (List (Nat × Nat) × List Byte)
  | 0, l => some ([], l)
  | n + 1, l => do
    let (k, l) ← read1 l
    let (w, l) ← read2 l
    let (rest, l) ← readCandidates n l
    pure ((k, w) :: rest, l)

/-- `n` flank requirements. -/
def readFlank : Nat → List Byte → Option (List (Nat × List (Nat × Nat)) × List Byte)
  | 0, l => some ([], l)
  | n + 1, l => do
    let (w, l) ← read2 l
    let (cs, l) ← readCandidates (wordQualifier w) l
    let (rest, l) ← readFlank n l
    pure ((w, cs) :: rest, l)

/-- The overlap fields that follow its present byte. A present byte other than 1 is followed by none (log 20). -/
def readOverlap (present : Nat) (l : List Byte) : Option ((List Nat × List Nat × Nat) × List Byte) :=
  if present = 1 then do
    let (ss, l) ← readList l
    let (ps, l) ← readList l
    let (t, l) ← read2 l
    pure ((ss, ps, t), l)
  else some (([], [], 0), l)

/-- R21: the body, when it is exactly as long as the list lengths it declares require. -/
def readRoute (body : List Byte) : Option RawRoute := do
  let (id, l) ← read2 body
  let (cls, l) ← read1 l
  let (entry, l) ← read2 l
  let (exit, l) ← read2 l
  let (path, l) ← readList l
  let (points, l) ← readList l
  let (present, l) ← read1 l
  let ((ss, ps, t), l) ← readOverlap present l
  let (nf, l) ← read1 l
  let (flank, l) ← readFlank nf l
  let (approach, l) ← readList l
  let (vmax, l) ← read2 l
  let (decel, l) ← read1 l
  let (reaction, l) ← read2 l
  let (fixedTime, l) ← read2 l
  if l = [] then
    pure ⟨id, cls, entry, exit, path, points, present, ss, ps, t, flank, approach, vmax, decel, reaction, fixedTime⟩
  else none

/-- The first index of a list whose entry fails a test on the entries before it and itself. -/
def firstIndex {α : Type} (bad : List α → α → Bool) : Nat → List α → List α → Option Nat
  | _, _, [] => none
  | k, before, a :: rest => if bad before a then some k else firstIndex bad (k + 1) (before ++ [a]) rest

/-- The failure at the first bad entry of a list. -/
def checkEach {α : Type} (f : Field) (bad : List α → α → Bool) (l : List α) : Option Failure :=
  (firstIndex bad 0 [] l).map (fun k => ⟨f, k, 0⟩)

/-- A section id is out of range, or stands earlier in its list or in another list. -/
def badSection (others : List Nat) (before : List Nat) (e : Nat) : Bool := !elementId e || e ∈ before || e ∈ others

/-- A point requirement word is no point id and position. -/
def badPointWord (w : Nat) : Bool := !elementId (wordId w) || (Position.ofCode (wordQualifier w)).isNone

/-- A point word names a point of the words before it, or of another list. -/
def repeatsPoint (others : List Nat) (before : List Nat) (w : Nat) : Bool :=
  (before.map wordId).contains (wordId w) || (others.map wordId).contains (wordId w)

/-- The kind of a candidate: LOCAL_POINT 1, LOCAL_SIGNAL 2, REMOTE 16 to 31. -/
def candidateKindOk (k : Nat) : Bool := k == 1 || k == 2 || (decide (16 ≤ k) && decide (k ≤ 31))

/-- R27: two candidates name the same local element, or the same link and remote element. -/
def sameElement (a b : Nat × Nat) : Bool :=
  (if 16 ≤ a.1 then a.1 == b.1 else decide (b.1 < 16)) && wordId a.2 == wordId b.2

/-- R27: one candidate is bad, in the checks' order; `before` are the route's earlier candidates. -/
def badCandidate (r : RawRoute) (before : List (Nat × Nat)) (c : Nat × Nat) : Bool :=
  !(candidateKindOk c.1 && elementId (wordId c.2) &&
    (if c.1 = 1 then (Position.ofCode (wordQualifier c.2)).isSome && !((r.points ++ r.ovPoints).map wordId).contains (wordId c.2)
     else if c.1 = 2 then wordId c.2 != r.entry
     else decide (c.1 - 16 ≤ 3) && (Required.ofCode (wordQualifier c.2)).isSome) &&
    !before.any (sameElement c))

/-- R27: the first bad candidate, requirement by requirement; `before` are the candidates already passed. -/
def checkCandidates (r : RawRoute) : Nat → List (Nat × Nat) → List (Nat × List (Nat × Nat)) → Option Failure
  | _, _, [] => none
  | k, before, q :: rest =>
    match firstIndex (fun own c => badCandidate r (before ++ own) c) 0 [] q.2 with
    | some j => some ⟨.flank, k, j⟩
    | none => checkCandidates r (k + 1) (before ++ q.2) rest

/-- R22 to R28: the first failing check of a route record. -/
def checkRoute (r : RawRoute) : Option Failure :=
  let points := (r.points ++ r.ovPoints).map wordId
  firstFailure [
    check (decide (r.id ≤ 255)) ⟨.routeId, 0, 0⟩,
    check (RouteClass.ofCode r.cls).isSome ⟨.cls, 0, 0⟩,
    check (elementId r.entry) ⟨.entry, 0, 0⟩,
    check (elementId r.exit && r.exit != r.entry) ⟨.exit, 0, 0⟩,
    check (decide (1 ≤ r.path.length ∧ r.path.length ≤ 16)) ⟨.path, 0, 0⟩,
    checkEach .path (badSection []) r.path,
    check (decide (r.points.length ≤ 16)) ⟨.points, 0, 0⟩,
    checkEach .points (fun _ w => badPointWord w) r.points,
    checkEach .points (repeatsPoint []) r.points,
    check (decide (r.overlap ≤ 1) && (r.overlap == 0 || r.cls == 1)) ⟨.overlap, 0, 0⟩,
    check (decide (r.ovSections.length ≤ 4)) ⟨.overlapSections, 0, 0⟩,
    check (decide (r.ovPoints.length ≤ 4)) ⟨.overlapPoints, 0, 0⟩,
    checkEach .overlapSections (badSection r.path) r.ovSections,
    checkEach .overlapPoints (fun _ w => badPointWord w) r.ovPoints,
    checkEach .overlapPoints (repeatsPoint r.points) r.ovPoints,
    check (decide (r.ovTime ≤ 1200)) ⟨.overlapTime, 0, 0⟩,
    check (decide (r.flank.length ≤ 12)) ⟨.flank, 0, 0⟩,
    checkEach .flank (fun _ q => !points.contains (wordId q.1)) r.flank,
    checkEach .flank (fun _ q => q.2.isEmpty) r.flank,
    checkCandidates r 0 [] r.flank,
    check (decide (r.approach.length ≤ 3)) ⟨.approach, 0, 0⟩,
    checkEach .approach (badSection (r.path ++ r.ovSections)) r.approach,
    check (r.cls != 3 || r.approach.isEmpty) ⟨.approach, 0, 0⟩,
    check (decide (100 ≤ r.vmax ∧ r.vmax ≤ 12000)) ⟨.vmax, 0, 0⟩,
    check (decide (10 ≤ r.decel ∧ r.decel ≤ 150)) ⟨.deceleration, 0, 0⟩,
    check (decide (r.reaction ≤ 30000)) ⟨.reaction, 0, 0⟩,
    check (decide (50 ≤ r.fixedTime ∧ r.fixedTime ≤ 3000)) ⟨.fixedTime, 0, 0⟩]

/-- A point requirement from its word. -/
def pointReq (w : Nat) : PointReq := ⟨wordId w, (Position.ofCode (wordQualifier w)).getD .normal⟩

/-- A candidate from its kind byte and word. -/
def candidateOf (c : Nat × Nat) : Candidate :=
  if c.1 = 1 then .localPoint (wordId c.2) ((Position.ofCode (wordQualifier c.2)).getD .normal)
  else if c.1 = 2 then .localSignal (wordId c.2)
  else .remote (c.1 - 16) (wordId c.2) ((Required.ofCode (wordQualifier c.2)).getD .stop)

/-- The definition a checked record stores. -/
def RawRoute.definition (r : RawRoute) : RouteDef where
  cls := (RouteClass.ofCode r.cls).getD .main
  entry := r.entry
  exit := r.exit
  path := r.path
  points := r.points.map pointReq
  overlap := if r.overlap = 1 then some ⟨r.ovSections, r.ovPoints.map pointReq, r.ovTime⟩ else none
  flank := r.flank.map (fun q => ⟨wordId q.1, q.2.map candidateOf⟩)
  approach := r.approach
  vmax := r.vmax
  decel := r.decel
  reaction := r.reaction
  fixedTime := r.fixedTime

/-- R21: a ROUTE_DEF body, with the route id and the definition it stores. -/
def readRouteDef (body : List Byte) : Except Failure (Nat × RouteDef) :=
  if body.length < 21 ∨ 241 < body.length then .error ⟨.length, 0, 0⟩
  else match readRoute body with
    | none => .error ⟨.length, 0, 0⟩
    | some r => match checkRoute r with
      | some f => .error f
      | none => .ok (r.id, r.definition)

/-! ### LINK_DEF, GROUP_DEF (R118, R172) -/

/-- R118: a parameter given as 0 takes its default. -/
def orDefault (n d : Nat) : Nat := if n = 0 then d else n

/-- R118: the first failing check of a link's effective parameters. -/
def checkLink (l senior : Nat) (p : LinkParams) : Option Failure :=
  firstFailure [
    check (decide (l ≤ 3)) ⟨.link, 0, 0⟩,
    check (decide (100 ≤ p.period ∧ p.period ≤ 1000)) ⟨.period, 0, 0⟩,
    check (decide (2 * p.period ≤ p.los ∧ p.los ≤ 10000)) ⟨.los, 0, 0⟩,
    check (decide (3 ≤ p.inLock ∧ p.inLock ≤ 32)) ⟨.inLock, 0, 0⟩,
    check (decide (2 ≤ p.outLock ∧ p.outLock ≤ 16)) ⟨.outLock, 0, 0⟩,
    check (decide (1000 ≤ p.answer ∧ p.answer ≤ 60000)) ⟨.answer, 0, 0⟩,
    check (decide (senior = 1 ∨ senior = 2)) ⟨.senior, 0, 0⟩]

/-- R118: a LINK_DEF body, with the link id and the parameters it stores. -/
def readLinkDef : List Byte → Except Failure (Nat × LinkParams)
  | [l, a, b, c, d, i, o, e, f, q] =>
    let p : LinkParams := ⟨orDefault (num2 a b) 250, orDefault (num2 c d) 1000, orDefault i.toNat 8,
      orDefault o.toNat 3, orDefault (num2 e f) 10000, q.toNat == 1⟩
    match checkLink l.toNat q.toNat p with
    | some x => .error x
    | none => .ok (l.toNat, p)
  | _ => .error ⟨.length, 0, 0⟩

/-- R172: a GROUP_DEF body, with the group id and the limit it stores. -/
def readGroupDef : List Byte → Except Failure (Nat × Nat)
  | [g, n] =>
    if 7 < g.toNat then .error ⟨.group, 0, 0⟩
    else if 1 ≤ n.toNat ∧ n.toNat ≤ 4 then .ok (g.toNat, n.toNat)
    else .error ⟨.limit, 0, 0⟩
  | _ => .error ⟨.length, 0, 0⟩

/-! ### GLOBAL_PARAMS (R172, R175) -/

/-- The entries of a GLOBAL_PARAMS body when it is a whole number of 1 to 10 entries. -/
def readParams (body : List Byte) : Option (List (Nat × Nat)) :=
  (paramEntries body).filter (fun l => decide (1 ≤ l.length ∧ l.length ≤ 10))

/-- A value lies in a parameter's own range (R172). -/
def paramInRange (p : Param) (v : Nat) : Bool := decide (p.least ≤ v ∧ v ≤ p.greatest)

/-- R172: the first entry that names an unknown parameter, one already named, or a value outside its range. Each entry is checked whole
before the next (DESIGN CHOICE, log 53). -/
def checkParams : List Nat → List (Nat × Nat) → Option Failure
  | _, [] => none
  | seen, (c, v) :: rest => match Param.ofCode c with
    | none => some ⟨.param c, 0, 0⟩
    | some p => if c ∈ seen ∨ paramInRange p v = false then some ⟨.param c, 0, 0⟩ else checkParams (c :: seen) rest

/-- R175: every entry names a known parameter, and none is named twice. -/
def paramsNamed : List Nat → List (Nat × Nat) → Bool
  | _, [] => true
  | seen, (c, _) :: rest => (Param.ofCode c).isSome && !seen.contains c && paramsNamed (c :: seen) rest

/-- R172: parameters with the entries' values taken. -/
def takeParams : List (Nat × Nat) → Params → Params
  | [], p => p
  | (c, v) :: rest, p => takeParams rest (match Param.ofCode c with
    | some k => p.put k v
    | none => p)

/-- R175: the nearest value of a parameter's own range. -/
def paramClamp (p : Param) (v : Nat) : Nat := if v < p.least then p.least else if p.greatest < v then p.greatest else v

/-- R175: parameters with each named value taken, clamped, and the parameters so clamped, listed in the order of the entries (DESIGN
CHOICE, log 66). -/
def clampParams : List (Nat × Nat) → Params × List Param → Params × List Param
  | [], r => r
  | (c, v) :: rest, (p, clamped) => clampParams rest (match Param.ofCode c with
    | some k => (p.put k (paramClamp k v), if paramInRange k v then clamped else clamped ++ [k])
    | none => (p, clamped))

/-- R175: SILENCE_2 is raised to twice SILENCE_1 when it is smaller, and marked clamped, last of all if its own entry did not clamp it
(DESIGN CHOICE, log 66). -/
def raiseSilence (r : Params × List Param) : Params × List Param :=
  if r.1.silence2 < 2 * r.1.silence1 then
    ({ r.1 with silence2 := 2 * r.1.silence1 }, if Param.silence2 ∈ r.2 then r.2 else r.2 ++ [.silence2])
  else r

/-- R175: a run-time GLOBAL_PARAMS: the parameters in force after it, and the parameters clamped. -/
def runTimeParams (entries : List (Nat × Nat)) (p : Params) : Params × List Param :=
  raiseSilence (clampParams entries (p, []))

end Sys2Proof.Machine
end

