-- ==== Sys2Proof/Machine/Configure.lean ====
section
/-! DEFINITION. Configuration, start-up and restart: stored records, the reference checks of CONFIG_END, taking a configuration into
service, the warm restart and the cold reset (R2, R29, R171 to R177, with R20, R119, R164). -/

namespace Sys2Proof.Machine

/-! ### Stored records (R171) -/

/-- R171: a stored record removes the earlier one of the same definition, and joins the list at the tail. -/
def Configuration.store (c : Configuration) (k : RecordKey) (body : List Byte) : Configuration :=
  { c with stored := c.stored.filter (fun r => r.key != k) ++ [⟨k, body⟩] }

/-- R173: the checksum over the bodies of the listed records, in list order. -/
def Configuration.checksum (c : Configuration) : BitVec 32 := crc32 (c.stored.flatMap StoredRecord.body)

/-! ### Reference checks (R2, R29) -/

/-- R2: another boundary element of the table, on the same link, names the same remote element. -/
def State.sharesRemote (s : State) (e l remote : Nat) : Bool :=
  (s.boundariesOn l).any (fun x => x != e && s.remoteOf x == remote)

/-- R2: the first failing reference of an element. -/
def State.elementReference (s : State) (e : Nat) : Option Failure := match s.defn e with
  | some (.point within group _ _ _) => firstFailure [
      check (s.isSection within) ⟨.containingSection, 0, 0⟩,
      check (s.cfg.groups.find group).isSome ⟨.powerGroup, 0, 0⟩]
  | some (.boundary l remote _ adjacent) => firstFailure [
      check (s.cfg.links.find l).isSome ⟨.link, 0, 0⟩,
      check (s.isSection adjacent) ⟨.adjacentSection, 0, 0⟩,
      check (!s.sharesRemote e l remote) ⟨.remoteId, 0, 0⟩]
  | _ => none

/-- R29: a candidate names a defined element or link. -/
def State.candidateDefined (s : State) : Candidate → Bool
  | .localPoint p _ => s.isPoint p
  | .localSignal g => s.isSignal g
  | .remote l _ _ => (s.cfg.links.find l).isSome

/-- R29: the first candidate that names nothing of its kind, requirement by requirement. -/
def State.flankReference (s : State) : Nat → List FlankReq → Option Failure
  | _, [] => none
  | k, q :: rest => match firstIndex (fun _ c => !s.candidateDefined c) 0 [] q.candidates with
    | some j => some ⟨.flank, k, j⟩
    | none => s.flankReference (k + 1) rest

/-- R29: a boundary element has one of two roles. -/
def State.roleIn (s : State) (e : Nat) (a b : Role) : Bool := s.roleOf e == some a || s.roleOf e == some b

/-- R29: the first failing reference of a route definition. -/
def State.routeReference (s : State) (r : RouteDef) : Option Failure :=
  firstFailure [
    check (if r.cls = .entry then s.roleIn r.entry .entry .both else s.isSignal r.entry) ⟨.entry, 0, 0⟩,
    check (s.isSignal r.exit || (r.cls != .entry && s.roleIn r.exit .exit .both)) ⟨.exit, 0, 0⟩,
    checkEach .path (fun _ e => !s.isSection e) r.path,
    check (r.cls != .entry || r.path.head? == some (s.adjacentOf r.entry)) ⟨.path, 0, 0⟩,
    check (!s.isBoundary r.exit || r.path.getLast? == some (s.adjacentOf r.exit)) ⟨.path, r.path.length - 1, 0⟩,
    checkEach .points (fun _ q => !(s.isPoint q.point && r.path.contains (s.containing q.point))) r.points,
    check (r.overlap.isNone || s.isSignal r.exit) ⟨.overlap, 0, 0⟩,
    checkEach .overlapSections (fun _ e => !s.isSection e) r.overlapSections,
    checkEach .overlapPoints (fun _ q => !(s.isPoint q.point && r.overlapSections.contains (s.containing q.point)))
      r.overlapPoints,
    s.flankReference 0 r.flank,
    checkEach .approach (fun _ e => !s.isSection e) r.approach]

/-- The first failure over the keys of a table, in key order, with the key. -/
def firstKey (f : Nat → Option Failure) : List Nat → Option (Nat × Failure)
  | [] => none
  | k :: rest => match f k with
    | some x => some (k, x)
    | none => firstKey f rest

/-- R2: the first element reference that fails. -/
def State.elementFailure (s : State) : Option (Nat × Failure) := firstKey s.elementReference s.cfg.elements.keys

/-- R29: the first route reference that fails. -/
def State.routeFailure (s : State) : Option (Nat × Failure) :=
  firstKey (fun r => match s.routeDef r with
    | some d => s.routeReference d
    | none => none) s.cfg.routes.keys

/-- What CONFIG_END finds wrong (R173). -/
inductive ConfigFault where
  | count (held : Nat)
  | checksum (computed : BitVec 32)
  | reference (id : Nat) (f : Failure)
  deriving DecidableEq, Repr

/-- R173: the five checks of CONFIG_END in order. -/
def State.configFault (s : State) (count sum : Nat) : Option ConfigFault :=
  if count ≠ s.cfg.stored.length then some (.count s.cfg.stored.length)
  else if sum ≠ s.cfg.checksum.toNat then some (.checksum s.cfg.checksum)
  else match s.elementFailure with
    | some (e, f) => some (.reference e f)
    | none => match s.routeFailure with
      | some (r, f) => some (.reference r f)
      | none =>
        if s.cfg.params.silence2 < 2 * s.cfg.params.silence1 then some (.reference 65535 ⟨.silence, 0, 0⟩) else none

/-- The refusal that a failed CONFIG_END draws (R173, R179). -/
def ConfigFault.refusal : ConfigFault → Reason × List Byte
  | .count n => (.configMismatch, bytes1 70 ++ bytes2 n)
  | .checksum c => (.configMismatch, bytes1 71 ++ bytes4 c.toNat)
  | .reference id f => (.configReference, bytes2 id ++ f.bytes)

/-! ### Set-up (R119, R174, R176, R177) -/

/-- R173: the whole configuration is discarded. -/
def State.discardConfiguration (s : State) : State := ({ s with cfg := {}, links := {} }).setMode .unconfigured

/-- R171: CONFIGURING is entered with everything empty and every parameter at its default. -/
def State.beginConfiguration (s : State) : State := ({ s with cfg := {}, links := {} }).setMode .configuring

/-- R119: a defined link passes through DOWN into PROVING: its counters are 0, its transmit sequence is kept, and so is a telegram that
is leaving (R120). -/
def State.restartLink (s : State) (l : Nat) : Link :=
  let k : Link := { txSeq := (s.link l).txSeq, sending := (s.link l).sending }
  k.proving s.time (s.linkParams l)

/-- R119: every defined link restarted; the others are DISABLED. -/
def State.restartedLinks (s : State) : Table Link := ⟨s.cfg.links.keys.map (fun l => (l, s.restartLink l))⟩

/-- R174, R177: every block in its restart state, in STARTUP with ENABLE_OUT low and the silence timer started. Its deadlines count from
this moment (R158; DESIGN CHOICE, log 48). -/
def State.setUp (s : State) : State :=
  { s with
    field := s.cfg.fieldImage
    locking := {}
    claims := {}
    movement := {}
    links := s.restartedLinks
    boundaries := {}
    su := {
      mode := .startup
      silenceFirst := s.timer s.cfg.params.silence1
      silenceSecond := s.timer s.cfg.params.silence2 }
    work := [] }

/-- R174: with nothing to be heard of, the field image is complete at once. -/
def State.completeIfEmpty (s : State) : State := if s.field.outstanding = 0 then s.setMode .restricted else s

/-- R174: a configuration that passed every check is taken into service. The device subject is marked, and then the subject of each
defined link in increasing link id order (DESIGN CHOICE, log 67). -/
def State.takeIntoService (s : State) : State :=
  let s := { s with cfg := { s.cfg with stored := [] } }
  let s := s.setUp.mark .device
  (s.forEach s.cfg.links.keys (fun l t => t.mark (.link l))).completeIfEmpty

/-- R177: the HLC's share of a warm restart. Replies and the frame on the line are kept. -/
def HostLink.restart (h : HostLink) : HostLink := { replies := h.replies, line := h.line }

/-- R164, R177: a warm restart. -/
def State.warmRestart (s : State) : State :=
  (({ s.setUp with host := s.host.restart, reports := [] }).mark .device).completeIfEmpty

/-- R176: a cold reset. The receivers hunt, and what their lines had brought is lost (log 8). The commands that wait outside, and the number
of free choices made, are the model's own and are kept. -/
def State.coldReset (s : State) : State := { State.reset with choices := s.choices, pending := s.pending }

end Sys2Proof.Machine
end

