-- ==== Sys2Proof/Machine/Telegrams.lean ====
section
/-! DEFINITION. A telegram taken from a link: the port's share, and then the Handover Controller's (R129, R132). -/

namespace Sys2Proof.Machine

/-- R129: a good telegram other than PROBE is received; one that is passed on is handled by the HC, after the health effects and
what they pass on have been taken. -/
def State.telegram (l : Nat) (seq : Byte) (a : Arrival) (handle : State → State) (s : State) : State :=
  let r := s.receive l seq a
  (if r.2 then handle r.1.settle else r.1).finish

/-- The boundary element of a link that a telegram names, with a role it fits (R132). -/
def State.named (s : State) (l e : Nat) (fits : Role → Bool) : Bool := match s.roleOf e with
  | some role => s.boundaryOn l e && fits role
  | none => false

/-- The element of a link whose outgoing offer has a reference and is not deferred (R135, R137). -/
def State.offeredOn (s : State) (l r : Nat) : Option (Nat × OutgoingOffer) :=
  (s.boundariesOn l).findSome? (fun e => match (s.boundary e).outgoing with
    | some o => if o.slot = r ∧ o.deferred = false then some (e, o) else none
    | none => none)

end Sys2Proof.Machine
end

