-- ==== Sys2Proof/Machine/DirectionCommands.lean ====
section
/-! DEFINITION. Meanings: the direction protocol of BOTH elements (08, R144 to R146). -/

namespace Sys2Proof.Machine

/-- R144: checks 2 to 5 of an ASK_DIRECTION, and its effect. -/
def askDirection (e : Nat) (s : State) : Answer :=
  if s.roleOf e != some .both then refuse s .notFound
  else if !s.directionIs e .inbound then refuse s .direction
  else if (s.boundary e).incoming.isSome || (s.boundary e).entrySlot.isSome || (s.boundary e).awaited.isSome then
    refuse s .entryBusy
  else
    let l := (s.linkOf e).getD 0
    if s.linkUp l then
      let t := s.timer (s.linkParams l).answer
      accepted ((s.hand l (.dirAsk (s.remoteOf e))).updBoundary e (fun b => { b with direction := .asking, dirTimer := t }))
    else refuse s .linkDown

/-- R144: an ASK_DIRECTION's answer, in a mode that takes it. -/
def askDirectionAnswer (body : List Byte) (s : State) : Answer := match body2 body with
  | none => badLength s
  | some e => if elementId e then askDirection e s else badField s ⟨.noName, 0, 0⟩

/-- ASK_DIRECTION (R144). -/
def execAskDirection (rq : Request) (s : State) : Host.Outcome State Fault Refusal :=
  .next (s.serve (requestFrame 0x30 rq) (fun s =>
    if s.su.mode = .safeHold then refuse s .mode else inService s (askDirectionAnswer rq.body)))

/-- R145: the element can be given. -/
def State.mayGive (s : State) (e : Nat) : Bool :=
  s.directionIs e .outbound && (s.boundary e).outgoing.isNone && (s.boundary e).entrySlot.isNone
  && !s.isLocked (s.adjacentOf e) && s.isClear (s.adjacentOf e)

/-- R145, R132: a DIR_ASK is answered. The element a DIR_DENY names where this side has no such boundary element is a free
value (log 30). -/
def State.takeDirAsk (l e : Nat) (s : State) : State :=
  if s.boundaryOn l e then
    if s.mayGive e then
      (s.updBoundary e (fun b => { b with direction := .inbound })).hand l (.dirGive (s.remoteOf e))
    else s.hand l (.dirDeny (s.remoteOf e))
  else s.hand l (.dirDeny (Config.deniedElement e).toNat)

/-- DIR_ASK (R145). -/
def execDirAsk (link : Nat) (seq : Byte) (element : Nat) (s : State) : Host.Outcome State Fault Refusal :=
  .next (s.telegram link seq .other (State.takeDirAsk link element))

/-- R146: an ASKING element takes a direction, and its timer stops. -/
def State.endAsking (e : Nat) (d : Direction) (s : State) : State :=
  if s.directionIs e .asking then s.updBoundary e (fun b => { b with direction := d, dirTimer := .stopped }) else s

/-- R146: a DIR_GIVE. -/
def State.takeDirGive (l e : Nat) (s : State) : State := if s.boundaryOn l e then s.endAsking e .outbound else s

/-- DIR_GIVE (R146). -/
def execDirGive (link : Nat) (seq : Byte) (element : Nat) (s : State) : Host.Outcome State Fault Refusal :=
  .next (s.telegram link seq .other (State.takeDirGive link element))

/-- R146: a DIR_DENY. -/
def State.takeDirDeny (l e : Nat) (s : State) : State := if s.boundaryOn l e then s.endAsking e .inbound else s

/-- DIR_DENY (R146). -/
def execDirDeny (link : Nat) (seq : Byte) (element : Nat) (s : State) : Host.Outcome State Fault Refusal :=
  .next (s.telegram link seq .other (State.takeDirDeny link element))

/-- DIRECTION_TIMER_EXPIRY (R146). -/
def execDirectionTimerExpiry (element : Nat) (s : State) : Host.Outcome State Fault Refusal :=
  .next (if (s.boundary element).dirTimer.expired s.time then (s.endAsking element .inbound).finish else s)

end Sys2Proof.Machine
end

