-- ==== Sys2Proof/Machine/FieldCommands.lean ====
section
/-! DEFINITION. Meanings: field and supply reports, and withdrawal supervision (01, R8 to R19). -/

namespace Sys2Proof.Machine

/-- The data of a report's reply: the applied count and the first skipped index, all ones for none (R179). -/
def ReportRun.data (r : ReportRun) : List Byte := bytes1 r.applied ++ id1 r.skipped

/-- R8: a FIELD_REPORT's answer in service. -/
def fieldAnswer (body : List Byte) (s : State) : Answer := match fieldEntries body with
  | none => badLength s
  | some entries =>
    if 1 ≤ entries.length ∧ entries.length ≤ 32 then
      let r := runEntries (fun x t => t.fieldEntry x.1 x.2.1 x.2.2) 0 entries ⟨s, 0, none⟩
      done r.state r.data
    else badLength s

/-- FIELD_REPORT (R8 to R10). -/
def execFieldReport (rq : Request) (s : State) : Host.Outcome State Fault Refusal :=
  .next (s.serve (requestFrame 0x10 rq) (fun s => inService s (fieldAnswer rq.body)))

/-- R11: a SUPPLY_REPORT's answer in service. -/
def supplyAnswer (body : List Byte) (s : State) : Answer := match supplyEntries body with
  | none => badLength s
  | some entries =>
    if 1 ≤ entries.length ∧ entries.length ≤ 8 then
      let r := runEntries (fun x t => t.supplyEntry x.1 x.2) 0 entries ⟨s, 0, none⟩
      done r.state r.data
    else badLength s

/-- SUPPLY_REPORT (R11). -/
def execSupplyReport (rq : Request) (s : State) : Host.Outcome State Fault Refusal :=
  .next (s.serve (requestFrame 0x11 rq) (fun s => inService s (supplyAnswer rq.body)))

/-- WITHDRAWAL_SUPERVISION_EXPIRY (R16). -/
def execWithdrawalSupervisionExpiry (signal : Nat) (s : State) : Host.Outcome State Fault Refusal :=
  .next (if (s.signal signal).withdrawal.expired s.time then (s.withdrawalExpired signal).finish else s)

end Sys2Proof.Machine
end

