-- ==== Sys2Proof/Machine/FlankCommands.lean ====
section
/-! DEFINITION. Meanings: flank asks and their answers (04, R72 to R75, R79 to R82). -/

namespace Sys2Proof.Machine

/-! ### Giving flank (R79 to R82) -/

/-- The given claim of a link with a reference. -/
def State.givenClaim (s : State) (l r : Nat) : Option GivenClaim := (s.link l).given.find? (fun c => c.reference == r)

/-- R80, checks 2 and 3: the element is of the kind the state needs, and available in it. -/
def State.canGive (s : State) (e : Nat) (q : Required) : Bool := match q.position with
  | some pos => s.isPoint e && s.pointAvailable e pos false
  | none => s.isSignal e && s.signalAvailable e false

/-- R80: an ask is granted. The claim is placed, a throw ordered if R77 calls for one, and FLANK_GIVEN sent if the element is
already satisfied. The link is marked before the element (DESIGN CHOICE, log 68). -/
def State.grant (l r e : Nat) (q : Required) (s : State) : State :=
  let record : GivenClaim := { reference := r, element := e, required := q, given := s.inRequiredState e q }
  let s := ((s.updLink l (fun k => { k with given := k.given ++ [record] })).mark (.link l)).placeClaim e q
  let s := match q.position with
    | some pos => s.orderForClaim e pos
    | none => s
  if record.given then s.hand l (.flankGiven r) else s

/-- R80: checks 2 to 4, and the grant. -/
def State.judgeAsk (l r e : Nat) (q : Required) (s : State) : State :=
  if s.canGive e q ∧ (s.link l).given.length < Config.askPlaces then s.grant l r e q else s.hand l (.flankRefused r)

/-- R80: an ask whose element and state are those of the record with its reference is a repeat. -/
def GivenClaim.repeats (c : GivenClaim) (e : Nat) (q : Required) : Bool := c.element == e && c.required == q

/-- R80: a FLANK_ASK. A record with its reference that names something else is released first. A reference above 507 is taken as received
(DESIGN CHOICE, log 54). -/
def State.takeFlankAsk (l r e want : Nat) (s : State) : State :=
  if s.su.mode = .safeHold then s.hand l (.flankRefused r)
  else match Required.ofCode want with
    | none => match s.givenClaim l r with
      | some _ => (s.releaseGiven l r).hand l (.flankRefused r)
      | none => s.hand l (.flankRefused r)
    | some q => match s.givenClaim l r with
      | some c =>
        if c.repeats e q then (if c.given then s.hand l (.flankGiven r) else s)
        else (s.releaseGiven l r).judgeAsk l r e q
      | none => s.judgeAsk l r e q

/-- FLANK_ASK (R80). -/
def execFlankAsk (link : Nat) (seq : Byte) (reference element required : Nat) (s : State) :
    Host.Outcome State Fault Refusal :=
  .next (s.telegram link seq .other (State.takeFlankAsk link reference element required))

/-- FLANK_RELEASE (R82). -/
def execFlankRelease (link : Nat) (seq : Byte) (reference : Nat) (s : State) : Host.Outcome State Fault Refusal :=
  .next (s.telegram link seq .other (State.releaseGiven link reference))

/-! ### Answers to asks (R74, R75) -/

/-- R74: the neighbour has given an ask: HELD, with the answer timer stopped. -/
def State.holdRemote (i j : Nat) (q : Requirement) (s : State) : State :=
  s.setRequirement i j { q with state := .held, firm := false, satisfied := false, deferred := false, answer := .stopped }

/-- R74: a FLANK_GIVEN. -/
def State.takeFlankGiven (l r : Nat) (s : State) : State := match s.answered l r with
  | some q => if q.state = .asked then s.holdRemote (askSlot r).1 (askSlot r).2 q else s
  | none => s.hand l (.flankRelease r)

/-- FLANK_GIVEN (R74). -/
def execFlankGiven (link : Nat) (seq : Byte) (reference : Nat) (s : State) : Host.Outcome State Fault Refusal :=
  .next (s.telegram link seq .other (State.takeFlankGiven link reference))

/-- R74: a FLANK_REFUSED. -/
def State.takeFlankRefused (l r : Nat) (s : State) : State := match s.answered l r with
  | some q => if q.state = .asked then s.nextCandidate (askSlot r).1 (askSlot r).2 l else s
  | none => s

/-- FLANK_REFUSED (R74). -/
def execFlankRefused (link : Nat) (seq : Byte) (reference : Nat) (s : State) : Host.Outcome State Fault Refusal :=
  .next (s.telegram link seq .other (State.takeFlankRefused link reference))

/-- R74, R75: a FLANK_WITHDRAWN. -/
def State.takeFlankWithdrawn (l r : Nat) (s : State) : State := match s.answered l r with
  | some q =>
    if q.state = .asked then s.nextCandidate (askSlot r).1 (askSlot r).2 l
    else s.loseRemote (askSlot r).1 (askSlot r).2 l
  | none => s

/-- FLANK_WITHDRAWN (R74, R75). -/
def execFlankWithdrawn (link : Nat) (seq : Byte) (reference : Nat) (s : State) : Host.Outcome State Fault Refusal :=
  .next (s.telegram link seq .other (State.takeFlankWithdrawn link reference))

/-- FLANK_ASK_ANSWER_EXPIRY (R74). -/
def execFlankAskAnswerExpiry (slot requirement : Nat) (s : State) : Host.Outcome State Fault Refusal :=
  .next (match s.requirement slot requirement, s.askLink slot requirement with
    | some q, some l =>
      if q.state = .asked ∧ q.answer.expired s.time then (s.nextCandidate slot requirement l).finish else s
    | _, _ => s)

end Sys2Proof.Machine
end

