-- ==== Sys2Proof/Machine/Auxiliary.lean ====
section
/-! DEFINITION. The auxiliary pair and the commands it guards: PREPARE_AUX, the match of a CONFIRM_AUX, and the executions (R13,
R82, R114, R159 to R164). -/

namespace Sys2Proof.Machine

/-- R160, check 3: the subject fits the kind. -/
def AuxKind.subjectOk (k : AuxKind) (subject : Nat) : Bool := match k with
  | .restoreSection => decide (subject ≤ 399)
  | .emergencyRelease => decide (subject ≤ 31)
  | .releaseGivenFlank => decide (subject ≤ 3)
  | .resume | .restart => subject == 0

/-- R13: RESTORE_SECTION is executed. -/
def execRestore (e : Nat) (s : State) : Answer :=
  if !s.isSection e then refuse s .notFound
  else if (s.sect e).held = .disturbed ∧ (s.sect e).latest = some .clear then done (s.restore e)
  else refuse s .badState

/-- R114: EMERGENCY_RELEASE is executed. -/
def execEmergency (i : Nat) (s : State) : Answer :=
  if 31 < i then badField s ⟨.noName, 0, 0⟩
  else match (s.slot i).state with
    | .free => refuse s .notFound
    | .timedRelease => done s
    | _ => done (s.enterTimedRelease i)

/-- R82, R162: RELEASE_GIVEN_FLANK is executed. The records are released in the order of the table (DESIGN CHOICE, log 64), and the number
released is sent in one byte (DESIGN CHOICE, log 25). -/
def execReleaseGiven (l : Nat) (s : State) : Answer :=
  if (s.cfg.links.find l).isNone then refuse s .notFound
  else if s.linkDown l then
    done (s.forEach ((s.link l).given.map GivenClaim.reference) (State.releaseGiven l)) (bytes1 (s.link l).given.length)
  else refuse s .badState

/-- R157, R95, R77: the mode leaves SAFE_HOLD. The PMC gives its orders first, and then the FE, each in increasing point id
order. -/
def State.leaveSafeHold (m : Mode) (s : State) : State :=
  let s := s.setMode m
  (s.forEach s.points State.reorderLocked).forEach s.points State.reorderClaimed

/-- R163: the mode that a RESUME leads to; none where it is refused. -/
def State.resumeMode (s : State) : Option Mode := match s.su.mode with
  | .safeHold =>
    if !s.causeOfClass .critical && decide (s.majorCount ≤ s.cfg.params.majorLimit)
        && decide (s.su.faults.size < Config.faultPlaces) then
      some (if s.field.outstanding = 0 then .restricted else .startup)
    else none
  | .restricted => if !s.causeOfClass .critical && !s.causeOfClass .major then some .normal else none
  | _ => none

/-- R163: a RESUME carried out. -/
def State.resumeTo (m : Mode) (s : State) : State :=
  if s.su.mode = .safeHold then (s.setOverflow false).leaveSafeHold m else s.setMode m

/-- R163: RESUME is executed. -/
def execResumption (s : State) : Answer := match s.resumeMode with
  | some m => done (s.resumeTo m) (bytes1 m.code)
  | none => refuse s .badState

/-- R161, R162: a matching confirm executes its command. -/
def executeAux (k : AuxKind) (subject : Nat) (s : State) : Answer := match k with
  | .restoreSection => execRestore subject s
  | .emergencyRelease => execEmergency subject s
  | .releaseGivenFlank => execReleaseGiven subject s
  | .resume => execResumption s
  | .restart => done s.warmRestart

/-- R161: a preparation stands for this kind and subject. -/
def State.prepared (s : State) (k : AuxKind) (subject : Nat) : Bool := match s.host.preparation with
  | some p => p.kind == k && p.subject == subject
  | none => false

/-- R161: a CONFIRM_AUX, once its mode and length have been checked. `k` is none for a kind that is not an auxiliary kind. -/
def confirm (a : Authority) (k : Option AuxKind) (subject : Nat) (s : State) : Answer :=
  if a = .routine then refuse s .authority
  else match k with
    | some kind =>
      if s.prepared kind subject then executeAux kind subject (s.putPreparation none)
      else refuse (s.putPreparation none) .noPrepare
    | none => refuse (s.putPreparation none) .noPrepare

/-- R160: a PREPARE_AUX. -/
def prepare (a : Authority) (kind subject : Nat) (s : State) : Answer :=
  if a = .routine then refuse s .authority
  else match AuxKind.ofCode kind with
    | none => badField s ⟨.noName, 0, 0⟩
    | some k =>
      if k.subjectOk subject then
        let deadline := s.time.plus s.cfg.params.auxWindow
        done (s.putPreparation (some ⟨k, subject, deadline⟩)) (time4 deadline)
      else badField s ⟨.noName, 0, 0⟩

end Sys2Proof.Machine
end

