-- ==== Sys2Proof/Machine/HostCommands.lean ====
section
/-! DEFINITION. Meanings: reset, frames, the transmit line, PING, QUERY and the configuration requests (10, R165 to R177; R1,
R21, R118). -/

namespace Sys2Proof.Machine

/-! ### Reset and frames -/

/-- COLD_RESET (R176). -/
def execColdReset (s : State) : Host.Outcome State Fault Refusal := .next s.coldReset

/-- HOST_FRAME_RECEIVED (R165, R166). The bytes of one frame are judged; a bad frame is counted, and bytes that open with no
delimiter are discarded. -/
def execHostFrameReceived (bytes : List Byte) (s : State) : Host.Outcome State Fault Refusal :=
  .next (match judgeFrame bytes with
    | .good f => (s.goodFrame f).finish
    | .bad e => s.badFrame e
    | .noFrame => s)

/-- BAD_FRAME (R165). -/
def execBadFrame (e : ReceiveError) (s : State) : Host.Outcome State Fault Refusal := .next (s.badFrame e)

/-- What the HLC makes of a frame whose kind or authority it refuses (R167): the kind is judged first. -/
def refuseHeader (f : HostFrame) (s : State) : Answer :=
  if (requestKind f.kind).isNone then refuse s .unknownKind else badField s ⟨.noName, 0, 0⟩

/-- UNKNOWN_KIND (R167). A frame whose kind and authority are both good is no such command, and nothing happens. -/
def execUnknownKind (f : HostFrame) (s : State) : Host.Outcome State Fault Refusal :=
  .next (if (requestKind f.kind).isSome && (authorityOf f.authority).isSome then s else s.serve f (refuseHeader f))

/-- TRANSMIT_LINE_FREE (R168, R169). -/
def execTransmitLineFree (s : State) : Host.Outcome State Fault Refusal := .next s.lineFree

/-! ### PING and QUERY (R170) -/

/-- PING: the device time and the mode. -/
def pingAnswer (s : State) : Answer := done s (time4 s.time ++ bytes1 s.su.mode.code)

/-- PING (R170). -/
def execPing (rq : Request) (s : State) : Host.Outcome State Fault Refusal := .next (s.serve (requestFrame 0x01 rq) pingAnswer)

/-- R170: the subject a query names; none where the kind is not one of the six or the id lies outside its range. -/
def querySubject (kind id : Nat) : Option Subject :=
  if kind = 1 ∧ id ≤ 399 then some (.element id)
  else if kind = 2 ∧ id ≤ 31 then some (.slot id)
  else if kind = 3 ∧ id ≤ 3 then some (.link id)
  else if kind = 4 ∧ id ≤ 31 then some (.faultIndex id)
  else if kind = 5 ∧ id ≤ 399 then some (.boundary id)
  else if kind = 6 then some .device
  else none

/-- R170: the subject is there to be shown. In UNCONFIGURED and CONFIGURING no element is yet defined. -/
def State.shows (s : State) : Subject → Bool
  | .element e => s.su.mode.inService && (s.defn e).isSome
  | .boundary e => s.su.mode.inService && s.isBoundary e
  | _ => true

/-- R170: a QUERY's answer. -/
def queryAnswer (body : List Byte) (s : State) : Answer := match body12 body with
  | none => badLength s
  | some (kind, id) => match querySubject kind id with
    | none => badField s ⟨.noName, 0, 0⟩
    | some sub => if s.shows sub then done s (sub.reportKind :: s.reportBody sub) else refuse s .notFound

/-- QUERY (R170). -/
def execQuery (rq : Request) (s : State) : Host.Outcome State Fault Refusal :=
  .next (s.serve (requestFrame 0x02 rq) (queryAnswer rq.body))

/-! ### Configuration (R171 to R174) -/

/-- CONFIG_BEGIN (R171). -/
def execConfigBegin (rq : Request) (s : State) : Host.Outcome State Fault Refusal :=
  .next (s.serve (requestFrame 0x08 rq) (fun s =>
    if s.su.mode = .unconfigured then done s.beginConfiguration else refuse s .mode))

/-- R1: an ELEMENT_DEF's answer in CONFIGURING. -/
def elementAnswer (body : List Byte) (s : State) : Answer := match readElement s.cfg.elements body with
  | .error f => badField s f
  | .ok (e, d) => done { s with cfg := { s.cfg with elements := s.cfg.elements.put e d }.store (.element e) body }

/-- ELEMENT_DEF (R1, R171). -/
def execElementDef (rq : Request) (s : State) : Host.Outcome State Fault Refusal :=
  .next (s.serve (requestFrame 0x0A rq) (fun s =>
    if s.su.mode = .configuring then elementAnswer rq.body s else refuse s .mode))

/-- R21: the route id of a ROUTE_DEF as received. A body too short to hold one shows all ones, as an absent id does (log 23). -/
def routeIdBytes : List Byte → List Byte
  | a :: b :: _ => [a, b]
  | _ => id2 none

/-- R21: a ROUTE_DEF's answer in CONFIGURING. A refusal carries the route id as received, and then the field and the two indices. -/
def routeAnswer (body : List Byte) (s : State) : Answer := match readRouteDef body with
  | .error f => refuse s .badField (routeIdBytes body ++ f.bytes)
  | .ok (r, d) =>
    done { s with cfg := { s.cfg with routes := s.cfg.routes.put r d }.store (.route r) body } (bytes2 r)

/-- ROUTE_DEF (R21 to R28, R171). -/
def execRouteDef (rq : Request) (s : State) : Host.Outcome State Fault Refusal :=
  .next (s.serve (requestFrame 0x0B rq) (fun s =>
    if s.su.mode = .configuring then routeAnswer rq.body s else refuse s .mode))

/-- R118: a LINK_DEF's answer in CONFIGURING. -/
def linkAnswer (body : List Byte) (s : State) : Answer := match readLinkDef body with
  | .error f => badField s f
  | .ok (l, p) => done { s with cfg := { s.cfg with links := s.cfg.links.put l p }.store (.link l) body }

/-- LINK_DEF (R118, R171). -/
def execLinkDef (rq : Request) (s : State) : Host.Outcome State Fault Refusal :=
  .next (s.serve (requestFrame 0x0C rq) (fun s =>
    if s.su.mode = .configuring then linkAnswer rq.body s else refuse s .mode))

/-- R172: a GROUP_DEF's answer in CONFIGURING. -/
def groupAnswer (body : List Byte) (s : State) : Answer := match readGroupDef body with
  | .error f => badField s f
  | .ok (g, n) => done { s with cfg := { s.cfg with groups := s.cfg.groups.put g n }.store (.group g) body }

/-- GROUP_DEF (R172, R171). -/
def execGroupDef (rq : Request) (s : State) : Host.Outcome State Fault Refusal :=
  .next (s.serve (requestFrame 0x0D rq) (fun s =>
    if s.su.mode = .configuring then groupAnswer rq.body s else refuse s .mode))

/-- The data of a GLOBAL_PARAMS reply: the CLAMPED flag, the number clamped, their codes (R179). -/
def clampedData (l : List Param) : List Byte :=
  bytes1 (flagByte [!l.isEmpty]) ++ bytes1 l.length ++ l.map (fun p => loByte p.code)

/-- R172: a GLOBAL_PARAMS in CONFIGURING. The parameters it does not name return to their defaults. -/
def storeParams (body : List Byte) (s : State) : Answer := match readParams body with
  | none => badLength s
  | some entries => match checkParams [] entries with
    | some f => badField s f
    | none =>
      done { s with cfg := { s.cfg with params := takeParams entries {} }.store .params body } (clampedData [])

/-- R175: the parameters in force change, and MAJOR_LIMIT acts at once. -/
def State.setParams (p : Params) (s : State) : State :=
  let s := ({ s with cfg := { s.cfg with params := p } }).mark .device
  if s.cfg.params.majorLimit < s.majorCount then s.setMode .safeHold else s

/-- R175: a GLOBAL_PARAMS at run time. -/
def changeParams (a : Authority) (body : List Byte) (s : State) : Answer :=
  if a = .routine then refuse s .authority
  else match readParams body with
    | none => badLength s
    | some entries =>
      if paramsNamed [] entries then
        let r := runTimeParams entries s.cfg.params
        done (s.setParams r.1) (clampedData r.2)
      else badField s ⟨.noName, 0, 0⟩

/-- R172, R175: a GLOBAL_PARAMS's answer, by mode. -/
def paramsAnswer (rq : Request) (s : State) : Answer := match s.su.mode with
  | .unconfigured => refuse s .mode
  | .configuring => storeParams rq.body s
  | _ => changeParams rq.authority rq.body s

/-- GLOBAL_PARAMS (R172, R175, R159). -/
def execGlobalParams (rq : Request) (s : State) : Host.Outcome State Fault Refusal :=
  .next (s.serve (requestFrame 0x0E rq) (paramsAnswer rq))

/-- R173: the record count and checksum of a CONFIG_END. -/
def configTotals : List Byte → Option (Nat × Nat)
  | [a, b, w, x, y, z] => some (num2 a b, num4 w x y z)
  | _ => none

/-- R173: a CONFIG_END's answer in CONFIGURING. -/
def configEndAnswer (body : List Byte) (s : State) : Answer := match configTotals body with
  | none => badLength s
  | some (count, sum) => match s.configFault count sum with
    | some x => refuse s.discardConfiguration x.refusal.1 x.refusal.2
    | none => done s.takeIntoService (bytes2 count)

/-- CONFIG_END (R173, R174). -/
def execConfigEnd (rq : Request) (s : State) : Host.Outcome State Fault Refusal :=
  .next (s.serve (requestFrame 0x09 rq) (fun s =>
    if s.su.mode = .configuring then configEndAnswer rq.body s else refuse s .mode))

end Sys2Proof.Machine
end

