-- ==== Sys2Proof/Machine/LinkCommands.lean ====
section
/-! DEFINITION. Meanings: the links' requests, bad and unknown telegrams, PROBE, and the links' timers (07, R118 to R130). -/

namespace Sys2Proof.Machine

/-- R130, R123: the link a request names: out of range, DISABLED, or to be acted on. -/
def onLink (body : List Byte) (act : Nat → State → Answer) (s : State) : Answer := match body1 body with
  | none => badLength s
  | some l =>
    if 3 < l then badField s ⟨.noName, 0, 0⟩
    else if (s.link l).state = .disabled then refuse s .notFound
    else act l s

/-- LINK_RESET (R130): the authority is the last check. -/
def execLinkReset (rq : Request) (s : State) : Host.Outcome State Fault Refusal :=
  .next (s.serve (requestFrame 0x38 rq) (fun s => inService s (onLink rq.body (fun l t =>
    if rq.authority = .routine then refuse t .authority else done (t.goDown l)))))

/-- CLEAR_COUNTERS (R123). -/
def execClearCounters (rq : Request) (s : State) : Host.Outcome State Fault Refusal :=
  .next (s.serve (requestFrame 0x39 rq) (fun s => inService s (onLink rq.body (fun l t => done (t.clearLinkCounters l)))))

/-- BAD_TELEGRAM (R122, R125, R126). -/
def execBadTelegram (link : Nat) (e : ReceiveError) (s : State) : Host.Outcome State Fault Refusal :=
  .next (s.badTelegram link e).finish

/-- UNKNOWN_KIND_TELEGRAM (R122). -/
def execUnknownKindTelegram (link : Nat) (seq : Byte) (s : State) : Host.Outcome State Fault Refusal :=
  .next (s.unknownTelegram link seq)

/-- TELEGRAM_TRANSMITTED (R120). -/
def execTelegramTransmitted (link : Nat) (s : State) : Host.Outcome State Fault Refusal := .next (s.telegramLeft link)

/-- SEND_TIMER_EXPIRY (R121). -/
def execSendTimerExpiry (link : Nat) (s : State) : Host.Outcome State Fault Refusal :=
  .next (if (s.link link).sendTimer.expired s.time then (s.sendTimerExpired link).finish else s)

/-- MISS_WATCH_EXPIRY (R126). -/
def execMissWatchExpiry (link : Nat) (s : State) : Host.Outcome State Fault Refusal :=
  .next (if (s.link link).missWatch.expired s.time then (s.missed link).finish else s)

/-- LOS_TIMER_EXPIRY (R127). -/
def execLosTimerExpiry (link : Nat) (s : State) : Host.Outcome State Fault Refusal :=
  .next (if (s.link link).losTimer.expired s.time then (s.signalLost link).finish else s)

/-- PROBE (R125, R126). A PROBE whose pattern is not 16 bytes is a length error (R181). -/
def execProbe (link : Nat) (seq number : Byte) (pattern : List Byte) (s : State) : Host.Outcome State Fault Refusal :=
  .next (if pattern.length = 16 then (s.receive link seq (.probe number pattern)).1.finish
    else (s.badTelegram link .length).finish)

end Sys2Proof.Machine
end

