-- ==== Sys2Proof/Machine/OfferCommands.lean ====
section
/-! DEFINITION. Meanings: offers, acceptance, withdrawal and train handover (08, R133 to R143). -/

namespace Sys2Proof.Machine

/-! ### The entry side (R138 to R141) -/

/-- R32: the part stores an ENTRY route. -/
def State.hasEntryRoute (s : State) : Bool := s.cfg.routes.entries.any (fun p => p.2.cls == .entry)

/-- R138, R32: the REFUSE reason an OFFER draws: MODE 1, UNKNOWN 2, BUSY 3, DIRECTION 4, and, in a part that stores no ENTRY route, a
free value (log 16); none when it passes. -/
def State.offerRefusal (s : State) (l e : Nat) : Option Nat :=
  if s.su.mode ≠ .normal then some 1
  else if !s.named l e (fun r => r == .entry || r == .both) then some 2
  else if s.holdsOffer e || (s.boundary e).awaited.isSome then some 3
  else if s.roleOf e == some .entry || s.directionIs e .inbound then
    if s.hasEntryRoute then none else some Config.refusalWithoutEntryRoutes.toNat
  else some 4

/-- R138, R139: an OFFER is refused, or recorded and accepted if the entry slot is OPEN. -/
def State.takeOffer (l e r cls : Nat) (s : State) : State := match s.offerRefusal l e with
  | some reason => s.hand l (.refuse r reason)
  | none => (s.updBoundary e (fun b => { b with incoming := some { reference := r, cls := cls } })).tryAccept e

/-- OFFER (R138, R139). -/
def execOffer (link : Nat) (seq : Byte) (element reference cls : Nat) (s : State) : Host.Outcome State Fault Refusal :=
  .next (s.telegram link seq .other (State.takeOffer link element reference cls))

/-- R140: a REFUSE_OFFER's answer in service. -/
def refuseOfferAnswer (body : List Byte) (s : State) : Answer := match body2 body with
  | none => badLength s
  | some e =>
    if !elementId e then badField s ⟨.noName, 0, 0⟩
    else match (s.boundary e).incoming with
      | none => refuse s .notFound
      | some o =>
        if !s.isBoundary e then refuse s .notFound
        else if o.accepted then refuse s .badState
        else done ((s.handFor e (.refuse o.reference 5)).updBoundary e (fun b => { b with incoming := none }))

/-- REFUSE_OFFER (R140). -/
def execRefuseOffer (rq : Request) (s : State) : Host.Outcome State Fault Refusal :=
  .next (s.serve (requestFrame 0x31 rq) (fun s => inService s (refuseOfferAnswer rq.body)))

/-- R140: a WITHDRAW removes the incoming offer of an element that has its reference. A reference above 31 is no offer's, and finds no
record (R181). -/
def State.dropIncoming (r e : Nat) (s : State) : State := match (s.boundary e).incoming with
  | some o => if o.reference = r ∧ r ≤ 31 then s.updBoundary e (fun b => { b with incoming := none }) else s
  | none => s

/-- R141: a RELEASED matches an element whose entry slot waits for its reference. -/
def State.awaits (s : State) (r e : Nat) : Option Nat := match (s.boundary e).entrySlot with
  | some i => if (s.boundary e).awaited = some r ∧ (s.slot i).state = .awaitReleased then some i else none
  | none => none

/-- R141: a RELEASED releases the slot that waits for it. Where two elements of the link wait for one reference, the one with the lowest
id is released alone (DESIGN CHOICE, log 51). -/
def State.takeReleased (l r : Nat) (s : State) : State :=
  match (s.boundariesOn l).findSome? (s.awaits r) with
  | some i => s.releaseSlot i .cancelled
  | none => s

/-- RELEASED (R141). -/
def execReleased (link : Nat) (seq : Byte) (reference : Nat) (s : State) : Host.Outcome State Fault Refusal :=
  .next (s.telegram link seq .other (State.takeReleased link reference))

/-! ### The exit side (R135, R137) -/

/-- R135: an ACCEPT. An answer that finds no record draws WITHDRAW. The boundary view is marked before the slot (DESIGN CHOICE, log 68). -/
def State.takeAccept (l r : Nat) (s : State) : State := match s.offeredOn l r with
  | none => s.hand l (.withdraw r)
  | some (e, o) =>
    if o.accepted then s
    else
      let o' := { o with accepted := true, answer := .stopped }
      ((s.updBoundary e (fun b => { b with outgoing := some o' })).mark (.slot r)).updSlot r
        (fun x => { x with needs := { x.needs with acceptance := false } })

/-- ACCEPT (R135). -/
def execAccept (link : Nat) (seq : Byte) (reference : Nat) (s : State) : Host.Outcome State Fault Refusal :=
  .next (s.telegram link seq .other (State.takeAccept link reference))

/-- R135, R53: a REFUSE. The slot is dropped, and shows the neighbour's reason. -/
def State.takeRefuse (l r reason : Nat) (s : State) : State := match s.offeredOn l r with
  | none => s.hand l (.withdraw r)
  | some (e, o) =>
    if o.accepted then s
    else ((s.removeOutgoing e true).dropSlot r .refused).updSlot r (fun x => { x with neighbourReason := some reason })

/-- REFUSE (R135). -/
def execRefuse (link : Nat) (seq : Byte) (reference reason : Nat) (s : State) : Host.Outcome State Fault Refusal :=
  .next (s.telegram link seq .other (State.takeRefuse link reference reason))

/-- OFFER_ANSWER_EXPIRY (R135). -/
def execOfferAnswerExpiry (element : Nat) (s : State) : Host.Outcome State Fault Refusal :=
  .next (match (s.boundary element).outgoing with
    | some o => if o.answer.expired s.time then (s.dropSlot o.slot .offerTimeout).finish else s
    | none => s)

/-- R137: the neighbour withdraws the acceptance of a slot at an exit boundary element. -/
def State.loseToWithdraw (e i : Nat) (s : State) : State :=
  let owe (t : State) : State := t.updBoundary e (fun b => { b with releasedPending := some i })
  match (s.slot i).state with
  | .pending => ((s.removeOutgoing e false).dropSlot i .cancelled).handFor e (.released i)
  | .locked | .opened =>
    if s.mustApproachLock i then owe ((s.removeOutgoing e false).approachLock i)
    else ((s.removeOutgoing e false).releaseSlot i .cancelled).handFor e (.released i)
  | .approachLocked => owe (s.removeOutgoing e false)
  | _ => s

/-- R137: a WITHDRAW at the exit side acts on an ACCEPTED record alone. -/
def State.withdrawOutgoingOf (l r : Nat) (s : State) : State := match s.offeredOn l r with
  | some (e, o) => if o.accepted then s.loseToWithdraw e r else s
  | none => s

/-- R137, R140: a WITHDRAW acts on the incoming offers with its reference, and on the acceptance with its reference. -/
def State.takeWithdraw (l r : Nat) (s : State) : State :=
  (s.forEach (s.boundariesOn l) (State.dropIncoming r)).withdrawOutgoingOf l r

/-- WITHDRAW (R137, R140). -/
def execWithdraw (link : Nat) (seq : Byte) (reference : Nat) (s : State) : Host.Outcome State Fault Refusal :=
  .next (s.telegram link seq .other (State.takeWithdraw link reference))

/-! ### Train handover (R142, R143) -/

/-- R142: the local slots PASSING whose route exits at a boundary element. -/
def State.passingTo (s : State) (e : Nat) : List Nat :=
  slotIds.filter (fun i => (s.slot i).state == .passing && s.exitBoundary i == some e)

/-- R142: occupied_beyond is set, and the passing slot's release is evaluated (R105). -/
def State.setBeyond (e : Nat) (s : State) : State :=
  if s.passingTo e = [] then s
  else (s.updBoundary e (fun b => { b with occupiedBeyond := true })).forEach (s.passingTo e) State.evaluateRelease

/-- R142: an OCCUPIED_BEYOND. -/
def State.takeOccupiedBeyond (l e : Nat) (s : State) : State := if s.boundaryOn l e then s.setBeyond e else s

/-- OCCUPIED_BEYOND (R142). -/
def execOccupiedBeyond (link : Nat) (seq : Byte) (element : Nat) (s : State) : Host.Outcome State Fault Refusal :=
  .next (s.telegram link seq .other (State.takeOccupiedBeyond link element))

/-- R143: a CLEARED_BEHIND sets the flag of a PASSING entry slot, and its release is evaluated (R105). -/
def State.takeClearedBehind (l e : Nat) (s : State) : State :=
  if s.boundaryOn l e then
    match (s.boundary e).entrySlot with
    | some i =>
      if (s.slot i).state = .passing then (s.updRelease i (fun x => { x with clearedBehind := true })).evaluateRelease i else s
    | none => s
  else s

/-- CLEARED_BEHIND (R143). -/
def execClearedBehind (link : Nat) (seq : Byte) (element : Nat) (s : State) : Host.Outcome State Fault Refusal :=
  .next (s.telegram link seq .other (State.takeClearedBehind link element))

end Sys2Proof.Machine
end

