-- ==== Sys2Proof/Machine/PointCommands.lean ====
section
/-! DEFINITION. Meanings: POINT_THROW, the throw timers and the supply-loss timers (05, R86, R87, R90, R93). -/

namespace Sys2Proof.Machine

/-- R86, check 5: the point is QUEUED or MOVING. -/
def State.isOrdered (s : State) (p : Nat) : Bool := (s.throwOf p).state == .queued || (s.throwOf p).state == .moving

/-- R86, check 6: the condition code of an unavailable point, LOCK 1 or CLAIM 2; none when the point may be thrown. A point that is both
locked and claimed answers LOCK (DESIGN CHOICE, log 57). -/
def State.throwBlocked (s : State) (p : Nat) (pos : Position) : Option Nat :=
  if !s.isHeld p || (s.isFaulted p && s.requiredPosition p == some pos) then none
  else if s.isLocked p then some 1 else some 2

/-- The point needs AUXILIARY authority (01, 1.1). -/
def State.isGuarded (s : State) (p : Nat) : Bool := match s.defn p with
  | some (.point _ _ g _ _) => g
  | _ => false

/-- R86: checks 3 to 7, and R87. -/
def throwAnswer (a : Authority) (p : Nat) (pos : Position) (s : State) : Answer :=
  if !s.isPoint p then refuse s .notFound
  else if s.isGuarded p && a == .routine then refuse s .authority
  else if s.isOrdered p then refuse s .badState (bytes1 (s.throwOf p).state.code)
  else match s.throwBlocked p pos with
    | some c => refuse s .pointUnavailable (bytes1 c)
    | none =>
      if s.isClear (s.containing p) then
        let r := s.throwOnRequest p pos
        if r.2 then accepted r.1 else done r.1
      else refuse s .pointUnavailable (bytes1 3)

/-- R86: a POINT_THROW's answer. -/
def pointThrowAnswer (rq : Request) (s : State) : Answer :=
  if s.su.mode = .startup ∨ s.su.mode = .restricted ∨ s.su.mode = .normal then
    match body21 rq.body with
    | none => badLength s
    | some (p, q) => match Position.ofCode q with
      | some pos => if elementId p then throwAnswer rq.authority p pos s else badField s ⟨.noName, 0, 0⟩
      | none => badField s ⟨.noName, 0, 0⟩
  else refuse s .mode (bytes1 s.su.mode.code)

/-- POINT_THROW (R86, R87). -/
def execPointThrow (rq : Request) (s : State) : Host.Outcome State Fault Refusal :=
  .next (s.serve (requestFrame 0x28 rq) (pointThrowAnswer rq))

/-- A throw timer has run to its deadline; a paused one does not expire (R90). -/
def ThrowTimer.expired (t : ThrowTimer) (now : Time) : Bool := match t with
  | .running d => Time.reached now d
  | _ => false

/-- THROW_TIMER_EXPIRY (R90). -/
def execThrowTimerExpiry (point : Nat) (s : State) : Host.Outcome State Fault Refusal :=
  .next (if (s.throwOf point).timer.expired s.time ∧ (s.throwOf point).state = .moving then
    (s.throwTimeout point).finish else s)

/-- SUPPLY_LOSS_TIMER_EXPIRY (R93). -/
def execSupplyLossTimerExpiry (group : Nat) (s : State) : Host.Outcome State Fault Refusal :=
  .next (if (s.powerGroup group).lossTimer.expired s.time then (s.supplyTimeout group).finish else s)

end Sys2Proof.Machine
end

