-- ==== Sys2Proof/Machine/RouteCommands.lean ====
section
/-! DEFINITION. Meanings: setting, committing and cancelling routes, and the slots' timers (03, R39 to R63; 06, R109, R110,
R116). -/

namespace Sys2Proof.Machine

/-! ### The checks of SET_ROUTE (R40 to R44) -/

/-- Check 3: the slot in use that has an entry element. -/
def State.slotWithEntry (s : State) (e : Nat) : Option Nat :=
  slotIds.find? (fun i => s.inUse i && s.entryOf i == some e)

/-- Check 4: the lowest-numbered FREE slot. -/
def State.freeSlot (s : State) : Option Nat := slotIds.find? (fun i => !s.inUse i)

/-- R41: the first conflicting element of a route, with its holder. -/
def State.conflictIn (s : State) : List Nat → Option (Nat × Nat)
  | [] => none
  | e :: rest => match s.lock e with
    | some l => some (e, l.holder)
    | none => s.conflictIn rest

/-- R42: a path or overlap point is available. -/
def State.routePointFree (s : State) (q : PointReq) : Bool :=
  !s.isFaulted q.point
  && (s.claimCount q.point == 0 || s.claimState q.point == some q.position.required)
  && !s.orderedTo q.point q.position.other
  && (s.detectedIn q.point q.position || s.isClear (s.containing q.point))

/-- R43: an exit boundary element may send an offer. -/
def State.maySend (s : State) (e : Nat) : Bool := s.roleOf e == some .exit || s.directionIs e .outbound

/-- R44: the first candidate of a list, from index `k`, that can be had. `asked` are the links of the asks chosen earlier in the
trial. -/
def State.trialOne (s : State) (i : Nat) (asked : List Nat) : Nat → List Candidate → Option (Nat × Candidate)
  | _, [] => none
  | k, c :: rest =>
    let fits : Bool := match c with
      | .localPoint p pos => s.pointAvailable p pos false
      | .localSignal g => s.signalAvailable g false
      | .remote l _ _ => s.askable i l (asked.count l)
    if fits then some (k, c) else s.trialOne i asked (k + 1) rest

/-- The link of a remote candidate, as a list of at most one. -/
def Candidate.links : Candidate → List Nat
  | .remote l _ _ => [l]
  | _ => []

/-- R44: the flank search as a trial: the choice for every requirement, or the first requirement index without one. -/
def State.trial (s : State) (i : Nat) : Nat → List Nat → List FlankReq → Except Nat (List (Nat × Candidate))
  | _, _, [] => .ok []
  | j, asked, q :: rest => match s.trialOne i asked 0 q.candidates with
    | none => .error j
    | some c => match s.trial i (j + 1) (asked ++ c.2.links) rest with
      | .error k => .error k
      | .ok cs => .ok (c :: cs)

/-- A SET_ROUTE that passed every check: the slot it takes and the flank choices. -/
structure RoutePlan where
  slot    : Nat
  choices : List (Nat × Candidate)
  deriving DecidableEq, Repr

/-- Checks 7 to 9, for an exit boundary route (R43). -/
def State.exitRefusal (s : State) (r : RouteDef) : Option (Reason × List Byte) :=
  match s.exitBoundaryOf r with
  | none => none
  | some e =>
    let l := (s.linkOf e).getD 0
    if !s.linkUp l then some (.linkDown, bytes1 l)
    else if !s.maySend e then some (.direction, bytes2 e)
    else if s.holdsOffer e then some (.entryBusy, bytes2 e)
    else none

/-- R40: checks 3 to 10 for a stored route. -/
def State.planRoute (s : State) (r : RouteDef) : Except (Reason × List Byte) RoutePlan :=
  match s.slotWithEntry r.entry with
  | some i => .error (.entryBusy, bytes1 i)
  | none => match s.freeSlot with
    | none => .error (.noSlot, [])
    | some i => match s.conflictIn r.lockOrder with
      | some (e, holder) => .error (.conflict, bytes2 e ++ bytes1 holder)
      | none => match r.allPoints.find? (fun q => !s.routePointFree q) with
        | some q => .error (.pointUnavailable, bytes2 q.point)
        | none => match s.exitRefusal r with
          | some x => .error x
          | none => match s.trial i 0 [] r.flank with
            | .error j => .error (.flankUnavailable, bytes1 j)
            | .ok cs => .ok ⟨i, cs⟩

/-! ### Acceptance (R45, R46) -/

/-- R45, step 1: the PROVISIONAL locks of the slot. Sections before points, which is the order in which the example of 10.10 marks them
(DEDUCED, log 31). -/
def State.placeLocks (i : Nat) (r : RouteDef) (s : State) : State :=
  let s := s.forEach r.path (fun e t => t.placeLock e i .path none)
  let s := s.forEach r.overlapSections (fun e t => t.placeLock e i .overlap none)
  let s := s.forEach r.points (fun q t => t.placeLock q.point i .path (some q.position))
  s.forEach r.overlapPoints (fun q t => t.placeLock q.point i .overlap (some q.position))

/-- R45, steps 2 and 3: one flank choice is placed. -/
def State.placeChoice (i j k : Nat) (c : Candidate) (s : State) : State := match c with
  | .localPoint p pos => s.chooseLocal i j k p pos.required none
  | .localSignal g => s.chooseLocal i j k g .stop none
  | .remote l element want => s.chooseRemote i j k l element want none

/-- R45, steps 2 and 3: the flank choices, in requirement index order. -/
def State.placeChoices (i : Nat) : Nat → List (Nat × Candidate) → State → State
  | _, [], s => s
  | j, (k, c) :: rest, s => State.placeChoices i (j + 1) rest (s.placeChoice i j k c)

/-- R35, R45, R98: the slot as it is taken. -/
def State.takenSlot (s : State) (id group : Nat) (r : RouteDef) : Slot where
  state := .pending
  route := some id
  group := some group
  pendingSince := some s.time
  requirements := r.flank.map (fun _ => { state := .lost })
  rel := { overlap := if r.overlap.isSome then .held else .none }

/-- R46: the commit needs of a slot that has just been taken. -/
def State.firstNeeds (s : State) (i group : Nat) (r : RouteDef) : Needs where
  group := group != 0
  acceptance := (s.exitBoundaryOf r).isSome
  flank := (s.slot i).requirements.any (fun q => q.state != .held)

/-- R46, R50: the needs are placed. With none the slot commits at once; otherwise the pending timer starts. -/
def State.placeNeeds (i group : Nat) (r : RouteDef) (s : State) : State :=
  let n := s.firstNeeds i group r
  if n = {} then s.commit i
  else s.updSlot i (fun x => { x with needs := n, pendingTimer := s.timer (s.cfg.params.pendingLimit * 100) })

/-- R45: an accepted SET_ROUTE. For an ENTRY route the HC records the entry slot (R131), before the locks are placed (DESIGN CHOICE, log 68);
for an exit boundary route it offers (R133). -/
def State.takeRoute (id group : Nat) (r : RouteDef) (plan : RoutePlan) (s : State) : State :=
  let i := plan.slot
  let s := s.putSlot i (s.takenSlot id group r)
  let s := if r.cls = .entry then s.updBoundary r.entry (fun b => { b with entrySlot := some i }) else s
  let s := s.placeLocks i r
  let s := State.placeChoices i 0 plan.choices s
  let s := match s.exitBoundaryOf r with
    | some e => s.sendOffer e i r.cls
    | none => s
  s.placeNeeds i group r

/-- R39, R40: a SET_ROUTE's answer in service. -/
def setRouteAnswer (body : List Byte) (s : State) : Answer := match body21 body with
  | none => badLength s
  | some (id, group) =>
    if 255 < id ∨ 15 < group then badField s ⟨.noName, 0, 0⟩
    else if s.su.mode ≠ .normal then refuse s .mode (bytes1 s.su.mode.code)
    else match s.routeDef id with
      | none => refuse s .unknownRoute
      | some r => match s.planRoute r with
        | .error x => refuse s x.1 x.2
        | .ok plan => accepted (s.takeRoute id group r plan) (bytes1 plan.slot)

/-- SET_ROUTE (R39 to R46). -/
def execSetRoute (rq : Request) (s : State) : Host.Outcome State Fault Refusal :=
  .next (s.serve (requestFrame 0x20 rq) (fun s => inService s (setRouteAnswer rq.body)))

/-! ### Groups (R48, R51) -/

/-- R48: a PENDING slot of the group that still has its GROUP need. -/
def State.awaitsGroup (s : State) (g i : Nat) : Bool :=
  (s.slot i).state == .pending && (s.slot i).group == some g && (s.slot i).needs.group

/-- R48: the GROUP need of one slot goes, and with its last need the slot commits. -/
def State.groupStep (i : Nat) (s : State) : State :=
  let s := s.updSlot i (fun x => { x with needs := { x.needs with group := false } })
  if (s.slot i).needs = {} then s.commit i else s

/-- R48: a COMMIT_GROUP's answer, in a mode that takes it. The number of slots is one byte (DESIGN CHOICE, log 25). -/
def commitGroupAnswer (body : List Byte) (s : State) : Answer := match body1 body with
  | none => badLength s
  | some g =>
    if g = 0 ∨ 15 < g then badField s ⟨.noName, 0, 0⟩
    else
      let l := slotIds.filter (s.awaitsGroup g)
      done (s.forEach l State.groupStep) (bytes1 l.length)

/-- COMMIT_GROUP (R48). -/
def execCommitGroup (rq : Request) (s : State) : Host.Outcome State Fault Refusal :=
  .next (s.serve (requestFrame 0x22 rq) (fun s =>
    if s.su.mode = .safeHold then refuse s .mode else inService s (commitGroupAnswer rq.body)))

/-- R51: a CANCEL_GROUP's answer in service. The number of slots is one byte (DESIGN CHOICE, log 25). -/
def cancelGroupAnswer (body : List Byte) (s : State) : Answer := match body1 body with
  | none => badLength s
  | some g =>
    if g = 0 ∨ 15 < g then badField s ⟨.noName, 0, 0⟩
    else
      let l := slotIds.filter (fun i => (s.slot i).state == .pending && (s.slot i).group == some g)
      done (s.forEach l (fun i t => t.dropSlot i .groupCancelled)) (bytes1 l.length)

/-- CANCEL_GROUP (R51). -/
def execCancelGroup (rq : Request) (s : State) : Host.Outcome State Fault Refusal :=
  .next (s.serve (requestFrame 0x23 rq) (fun s => inService s (cancelGroupAnswer rq.body)))

/-! ### Cancelling (R61 to R63, R141) -/

/-- The accepted incoming offer of an ENTRY slot, with its element (R61). -/
def State.acceptedIncoming (s : State) (i : Nat) : Option (Nat × IncomingOffer) := match s.entryBoundary i with
  | some e => match (s.boundary e).incoming with
    | some o => if o.accepted && (s.boundary e).entrySlot == some i then some (e, o) else none
    | none => none
  | none => none

/-- R141: WITHDRAW is handed, the awaited reference is set, the incoming offer removed, and the slot enters AWAIT_RELEASED. -/
def State.awaitRelease (i e : Nat) (o : IncomingOffer) (s : State) : State :=
  ((s.handFor e (.withdraw o.reference)).updBoundary e
    (fun b => { b with awaited := some o.reference, incoming := none })).updSlot i
    (fun x => { x with state := .awaitReleased, waiting := {} })

/-- R61: the cancellation of a LOCKED or OPEN slot. -/
def State.cancelSecured (i : Nat) (s : State) : State := match s.acceptedIncoming i with
  | some (e, o) => s.awaitRelease i e o
  | none => if s.mustApproachLock i then s.approachLock i else s.releaseSlot i .cancelled

/-- R61: a CANCEL_ROUTE's answer in service. -/
def cancelRouteAnswer (body : List Byte) (s : State) : Answer := match body1 body with
  | none => badLength s
  | some i =>
    if 31 < i then badField s ⟨.noName, 0, 0⟩
    else match (s.slot i).state with
      | .free => refuse s .notFound
      | .pending => done (s.dropSlot i .cancelled)
      | .locked | .opened => done (s.cancelSecured i)
      | .passing => refuse s .badState
      | .approachLocked | .timedRelease | .awaitReleased => done s

/-- CANCEL_ROUTE (R61). -/
def execCancelRoute (rq : Request) (s : State) : Host.Outcome State Fault Refusal :=
  .next (s.serve (requestFrame 0x21 rq) (fun s => inService s (cancelRouteAnswer rq.body)))

/-! ### Timers of slots -/

/-- PENDING_TIMER_EXPIRY (R50). -/
def execPendingTimerExpiry (slot : Nat) (s : State) : Host.Outcome State Fault Refusal :=
  .next (if (s.slot slot).pendingTimer.expired s.time ∧ (s.slot slot).state = .pending then
    (s.dropSlot slot .timeout).finish else s)

/-- R57: the proving timer of an OPEN slot expires. The slot is LOCKED, and waits with reason PROVING until an event of R56 concerns it
(log 35). -/
def State.provingExpired (i : Nat) (s : State) : State :=
  let s' := (s.withdrawPermission i).updSlot i (fun x => { x with state := .locked, unproven := true })
  match s.entrySignal i with
  | some g => s'.raiseNow .signalNotProven (.element g)
  | none => s'

/-- PROVING_TIMER_EXPIRY (R57). -/
def execProvingTimerExpiry (slot : Nat) (s : State) : Host.Outcome State Fault Refusal :=
  .next (if (s.slot slot).provingTimer.expired s.time ∧ (s.slot slot).state = .opened then
    (s.provingExpired slot).finish else s)

/-- R109: the overlap timer of a PASSING slot expires. -/
def State.overlapExpired (i : Nat) (s : State) : State := match s.routeOf i with
  | some r => (s.releaseOverlap i r).evaluateRelease i
  | none => s

/-- OVERLAP_TIMER_EXPIRY (R109). -/
def execOverlapTimerExpiry (slot : Nat) (s : State) : Host.Outcome State Fault Refusal :=
  .next (if (s.slot slot).rel.overlapTimer.expired s.time ∧ (s.slot slot).state = .passing then
    (s.overlapExpired slot).finish else s)

/-- APPROACH_TIMER_EXPIRY (R110, R137). -/
def execApproachTimerExpiry (slot : Nat) (s : State) : Host.Outcome State Fault Refusal :=
  .next (if (s.slot slot).rel.approachTimer.expired s.time ∧ (s.slot slot).state = .approachLocked then
    (s.approachExpired slot).finish else s)

/-- EMERGENCY_TIMER_EXPIRY (R116). -/
def execEmergencyTimerExpiry (slot : Nat) (s : State) : Host.Outcome State Fault Refusal :=
  .next (if (s.slot slot).rel.emergencyTimer.expired s.time ∧ (s.slot slot).state = .timedRelease then
    (s.releaseSlot slot .emergency).finish else s)

end Sys2Proof.Machine
end

