-- ==== Sys2Proof/Machine/StateCommand.lean ====
section
/-! DEFINITION. Meaning: STATE, and the reconciliation of the part's records with it (08, R136, R147 to R149). -/

namespace Sys2Proof.Machine

/-- R149: the peer's entry for a local element; a missing entry shows direction UNKNOWN and every flag clear. Of two entries that name
the element the first is read (DESIGN CHOICE, log 55). -/
def peerEntry (b : StateBody) (e : Nat) : StateEntry := (b.entries.find? (fun x => x.element == e)).getD ⟨e, 1, false, false, false⟩

/-! ### Flank (R82, R75, R73) -/

/-- R149, step 1: given claims whose references the peer's asks do not list are released (R82), in the order of the table (DESIGN CHOICE,
log 64). -/
def State.releaseUnlisted (l : Nat) (b : StateBody) (s : State) : State :=
  s.forEach (((s.link l).given.map GivenClaim.reference).filter (fun r => !b.asks.contains r)) (State.releaseGiven l)

/-- R149, step 1, at one requirement: one HELD on the link whose reference the peer's given list does not show is lost (R75), and
a LOST one that the changes of this event concern is searched again (R71). Both are searches of one event, and R69 takes them in
slot id and requirement index order together. -/
def State.checkHeld (l : Nat) (b : StateBody) (p : Nat × Nat) (s : State) : State :=
  match s.requirement p.1 p.2 with
  | some q =>
    if q.state = .held ∧ s.askLink p.1 p.2 = some l ∧ b.given.contains (askReference p.1 p.2) = false then
      s.loseUnlisted p.1 p.2
    else if q.state = .lost ∧ (s.slot p.1).state ≠ .timedRelease then s.searchIfConcerned s.work p.1 p.2
    else s
  | none => s

/-- R73: the references that the given list does not hold leave the retired set. -/
def State.freeAsks (l : Nat) (b : StateBody) (s : State) : State :=
  s.updLink l (fun k => { k with retiredAsks := k.retiredAsks.filter b.given.contains })

/-- R149, step 1: the given claims first, then one pass over the requirements, then the retired set. -/
def State.reconcileFlank (l : Nat) (b : StateBody) (s : State) : State :=
  let s := s.releaseUnlisted l b
  let s := s.forEach s.allRequirements (State.checkHeld l b)
  (s.freeAsks l b).sendDeferredAsks l

/-! ### Offers (R140, R136, R134) -/

/-- R149, step 2: one element's incoming offer. -/
def State.checkIncoming (b : StateBody) (e : Nat) (s : State) : State :=
  if (s.boundary e).incoming.isSome && !(peerEntry b e).offerPresent then
    s.updBoundary e (fun x => { x with incoming := none })
  else s

/-- R136: the acceptance of a slot is lost at an exit boundary element. -/
def State.loseAcceptance (e i : Nat) (s : State) : State := match (s.slot i).state with
  | .pending => (s.removeOutgoing e false).dropSlot i .refused
  | .locked | .opened | .approachLocked => s.removeOutgoing e false
  | _ => s

/-- R149, step 3: one element's ACCEPTED outgoing offer. -/
def State.checkOutgoing (b : StateBody) (e : Nat) (s : State) : State := match (s.boundary e).outgoing with
  | some o => if o.accepted && !(peerEntry b e).acceptanceGiven then s.loseAcceptance e o.slot else s
  | none => s

/-- R134: the pairs whose element's entry shows acceptance given clear leave the retired offer set. -/
def State.freeOffers (l : Nat) (b : StateBody) (s : State) : State :=
  s.updLink l (fun k => { k with retiredOffers := k.retiredOffers.filter (fun p => (peerEntry b p.2).acceptanceGiven) })

/-- R149, step 3. -/
def State.reconcileOutgoing (l : Nat) (b : StateBody) (s : State) : State :=
  let s := s.forEach (s.boundariesOn l) (State.checkOutgoing b)
  (s.freeOffers l b).sendDeferredOffers l

/-- R149, step 4: one element's occupation beyond. -/
def State.checkBeyond (b : StateBody) (e : Nat) (s : State) : State :=
  if (peerEntry b e).occupiedBeyond then s.setBeyond e else s

/-! ### Direction (R147) -/

/-- The direction a claim is read as: ASKING as INBOUND, and a value outside 1 to 4 as UNKNOWN (R147, R181). -/
def claimRead (c : Nat) : Direction := if c = 2 then .outbound else if c = 3 ∨ c = 4 then .inbound else .unknown

/-- A local direction as the table of R147 reads it. -/
def Direction.read : Direction → Direction
  | .asking => .inbound
  | d => d

/-- R147: the direction a side takes; none where it keeps its own. -/
def reconciled (senior : Bool) (own peer : Direction) : Option Direction := match own.read, peer with
  | .unknown, .outbound => some .inbound
  | .unknown, .inbound => some .outbound
  | .unknown, .unknown => if senior then some .outbound else none
  | .inbound, .inbound => if senior then some .outbound else none
  | .outbound, .outbound => if senior then none else some .inbound
  | _, _ => none

/-- R147: what the removal of an outgoing offer by direction reconciliation does to its slot. -/
def State.loseToDirection (e : Nat) (s : State) : State := match (s.boundary e).outgoing with
  | some o =>
    let s' := s.removeOutgoing e false
    if (s.slot o.slot).state = .pending then s'.dropSlot o.slot .directionConflict else s'
  | none => s

/-- R147: an element takes a direction. A junior that gives up OUTBOUND raises DIRECTION_CONFLICT and loses its outgoing
offer. The boundary view is marked before the fault index, and that before the slot (DESIGN CHOICE, log 68). -/
def State.takeDirection (e : Nat) (d : Direction) (s : State) : State :=
  let conflict : Bool := (s.boundary e).direction == .outbound
  let s := s.updBoundary e (fun b => { b with direction := d, dirTimer := .stopped })
  if conflict then (s.raiseNow .directionConflict (.boundary e)).loseToDirection e else s

/-- R147: the cause of DIRECTION_CONFLICT goes when the peer claims OUTBOUND while the local element is INBOUND. -/
def State.endConflict (e : Nat) (own peer : Direction) (s : State) : State :=
  if own.read = .inbound ∧ peer = .outbound then s.causeGone .directionConflict (.boundary e) else s

/-- R149, step 5: one element of role BOTH reconciles its direction. -/
def State.checkDirection (l : Nat) (b : StateBody) (e : Nat) (s : State) : State :=
  if s.roleOf e = some .both then
    let own := (s.boundary e).direction
    let peer := claimRead (peerEntry b e).claim
    let s := match reconciled (s.linkParams l).senior own peer with
      | some d => s.takeDirection e d
      | none => s
    s.endConflict e own peer
  else s

/-! ### The whole (R148, R149) -/

/-- R148, R149: a STATE is taken: the neighbour's mode is recorded, and the five steps are made in order. Within a step the link's
elements are taken in increasing element id order (DESIGN CHOICE, log 56). -/
def State.takeState (l : Nat) (b : StateBody) (s : State) : State :=
  let s := s.updLink l (fun k => { k with neighbourMode := some b.mode })
  let s := s.reconcileFlank l b
  let s := s.forEach (s.boundariesOn l) (State.checkIncoming b)
  let s := s.reconcileOutgoing l b
  let s := s.forEach (s.boundariesOn l) (State.checkBeyond b)
  s.forEach (s.boundariesOn l) (State.checkDirection l b)

/-- R181: the counts of a STATE are within their limits. -/
def stateFits (b : StateBody) : Bool :=
  decide (b.asks.length ≤ 16) && decide (b.given.length ≤ 16) && decide (b.entries.length ≤ 8)

/-- STATE (R148, R149). A STATE whose counts exceed their limits is a length error (R181). -/
def execState (link : Nat) (seq : Byte) (body : StateBody) (s : State) : Host.Outcome State Fault Refusal :=
  .next (if stateFits body then s.telegram link seq .state (State.takeState link body)
    else (s.badTelegram link .length).finish)

end Sys2Proof.Machine
end

