-- ==== Sys2Proof/Machine/SupervisionCommands.lean ====
section
/-! DEFINITION. Meanings: acknowledging faults, host silence, and the auxiliary pair with the commands it guards (09, R154 to
R164; R13, R82, R114). -/

namespace Sys2Proof.Machine

/-- R154: an ACK_FAULT's answer in service. -/
def ackAnswer (body : List Byte) (s : State) : Answer := match body1 body with
  | none => badLength s
  | some i =>
    if 31 < i then badField s ⟨.noName, 0, 0⟩
    else match s.acknowledge i with
      | some t => done t
      | none => refuse s .notFound

/-- ACK_FAULT (R154). -/
def execAckFault (rq : Request) (s : State) : Host.Outcome State Fault Refusal :=
  .next (s.serve (requestFrame 0x40 rq) (fun s => inService s (ackAnswer rq.body)))

/-- R158: the first deadline is reached. -/
def State.silent (s : State) : State :=
  ({ s with su := { s.su with silenceFirst := .stopped } }).raiseNow .hostSilent .device

/-- HOST_SILENT (R158). -/
def execHostSilent (s : State) : Host.Outcome State Fault Refusal :=
  .next (if s.su.silenceFirst.expired s.time then s.silent.finish else s)

/-- R158: the second deadline is reached. -/
def State.silentLong (s : State) : State :=
  ({ s with su := { s.su with silenceSecond := .stopped } }).raiseNow .hostSilentLong .device

/-- HOST_SILENT_LONG (R158). -/
def execHostSilentLong (s : State) : Host.Outcome State Fault Refusal :=
  .next (if s.su.silenceSecond.expired s.time then s.silentLong.finish else s)

/-- R160: a PREPARE_AUX's answer in service. -/
def prepareAnswer (rq : Request) (s : State) : Answer := match body12 rq.body with
  | none => badLength s
  | some (kind, subject) => prepare rq.authority kind subject s

/-- PREPARE_AUX (R160). -/
def execPrepareAux (rq : Request) (s : State) : Host.Outcome State Fault Refusal :=
  .next (s.serve (requestFrame 0x41 rq) (fun s => inService s (prepareAnswer rq)))

/-- R160: the window's deadline has been reached with the preparation still present. -/
def State.windowOver (s : State) : Bool := match s.host.preparation with
  | some p => Time.reached s.time p.deadline
  | none => false

/-- AUX_WINDOW_EXPIRY (R160). -/
def execAuxWindowExpiry (s : State) : Host.Outcome State Fault Refusal :=
  .next (if s.windowOver then (s.putPreparation none).finish else s)

/-- R161: a CONFIRM_AUX's answer in service. -/
def confirmAnswer (rq : Request) (s : State) : Answer := match body12 rq.body with
  | none => badLength s
  | some (kind, subject) => confirm rq.authority (AuxKind.ofCode kind) subject s

/-- CONFIRM_AUX (R161): the kind and the subject are those of its body. -/
def execConfirmAux (rq : Request) (s : State) : Host.Outcome State Fault Refusal :=
  .next (s.serve (requestFrame 0x42 rq) (fun s => inService s (confirmAnswer rq)))

/-- RESTORE_SECTION (R13, R161): a CONFIRM_AUX of that kind. -/
def execRestoreSection (h : Header) (element : Nat) (s : State) : Host.Outcome State Fault Refusal :=
  .next (s.serve (confirmFrame h .restoreSection element)
    (fun s => inService s (confirm h.authority (some .restoreSection) element)))

/-- EMERGENCY_RELEASE (R114, R115, R161): a CONFIRM_AUX of that kind. -/
def execEmergencyRelease (h : Header) (slot : Nat) (s : State) : Host.Outcome State Fault Refusal :=
  .next (s.serve (confirmFrame h .emergencyRelease slot)
    (fun s => inService s (confirm h.authority (some .emergencyRelease) slot)))

/-- RELEASE_GIVEN_FLANK (R82, R162): a CONFIRM_AUX of that kind. -/
def execReleaseGivenFlank (h : Header) (link : Nat) (s : State) : Host.Outcome State Fault Refusal :=
  .next (s.serve (confirmFrame h .releaseGivenFlank link)
    (fun s => inService s (confirm h.authority (some .releaseGivenFlank) link)))

/-- RESUME (R163): a CONFIRM_AUX of that kind. -/
def execResume (h : Header) (s : State) : Host.Outcome State Fault Refusal :=
  .next (s.serve (confirmFrame h .resume 0) (fun s => inService s (confirm h.authority (some .resume) 0)))

/-- RESTART (R164, R177): a CONFIRM_AUX of that kind. -/
def execRestart (h : Header) (s : State) : Host.Outcome State Fault Refusal :=
  .next (s.serve (confirmFrame h .restart 0) (fun s => inService s (confirm h.authority (some .restart) 0)))

end Sys2Proof.Machine
end

