-- ==== Sys2Proof/Machine/Dispatch.lean ====
section
/-! DEFINITION. One arm for each command of the table. -/

namespace Sys2Proof.Machine

/-- The effect of a command on everything but the queue of commands. -/
def exec (i : Instr) (s : State) : Host.Outcome State Fault Refusal :=
  match i with
  | .coldReset => Sys2Proof.Machine.execColdReset s
  | .hostFrameReceived bytes => Sys2Proof.Machine.execHostFrameReceived bytes s
  | .badFrame e => Sys2Proof.Machine.execBadFrame e s
  | .unknownKind f => Sys2Proof.Machine.execUnknownKind f s
  | .transmitLineFree => Sys2Proof.Machine.execTransmitLineFree s
  | .ping rq => Sys2Proof.Machine.execPing rq s
  | .query rq => Sys2Proof.Machine.execQuery rq s
  | .configBegin rq => Sys2Proof.Machine.execConfigBegin rq s
  | .elementDef rq => Sys2Proof.Machine.execElementDef rq s
  | .routeDef rq => Sys2Proof.Machine.execRouteDef rq s
  | .linkDef rq => Sys2Proof.Machine.execLinkDef rq s
  | .groupDef rq => Sys2Proof.Machine.execGroupDef rq s
  | .globalParams rq => Sys2Proof.Machine.execGlobalParams rq s
  | .configEnd rq => Sys2Proof.Machine.execConfigEnd rq s
  | .fieldReport rq => Sys2Proof.Machine.execFieldReport rq s
  | .supplyReport rq => Sys2Proof.Machine.execSupplyReport rq s
  | .withdrawalSupervisionExpiry signal => Sys2Proof.Machine.execWithdrawalSupervisionExpiry signal s
  | .setRoute rq => Sys2Proof.Machine.execSetRoute rq s
  | .commitGroup rq => Sys2Proof.Machine.execCommitGroup rq s
  | .cancelGroup rq => Sys2Proof.Machine.execCancelGroup rq s
  | .cancelRoute rq => Sys2Proof.Machine.execCancelRoute rq s
  | .pendingTimerExpiry slot => Sys2Proof.Machine.execPendingTimerExpiry slot s
  | .provingTimerExpiry slot => Sys2Proof.Machine.execProvingTimerExpiry slot s
  | .overlapTimerExpiry slot => Sys2Proof.Machine.execOverlapTimerExpiry slot s
  | .approachTimerExpiry slot => Sys2Proof.Machine.execApproachTimerExpiry slot s
  | .emergencyTimerExpiry slot => Sys2Proof.Machine.execEmergencyTimerExpiry slot s
  | .flankAskAnswerExpiry slot requirement => Sys2Proof.Machine.execFlankAskAnswerExpiry slot requirement s
  | .pointThrow rq => Sys2Proof.Machine.execPointThrow rq s
  | .throwTimerExpiry point => Sys2Proof.Machine.execThrowTimerExpiry point s
  | .supplyLossTimerExpiry group => Sys2Proof.Machine.execSupplyLossTimerExpiry group s
  | .ackFault rq => Sys2Proof.Machine.execAckFault rq s
  | .hostSilent => Sys2Proof.Machine.execHostSilent s
  | .hostSilentLong => Sys2Proof.Machine.execHostSilentLong s
  | .prepareAux rq => Sys2Proof.Machine.execPrepareAux rq s
  | .auxWindowExpiry => Sys2Proof.Machine.execAuxWindowExpiry s
  | .restoreSection h element => Sys2Proof.Machine.execRestoreSection h element s
  | .emergencyRelease h slot => Sys2Proof.Machine.execEmergencyRelease h slot s
  | .releaseGivenFlank h link => Sys2Proof.Machine.execReleaseGivenFlank h link s
  | .resume h => Sys2Proof.Machine.execResume h s
  | .restart h => Sys2Proof.Machine.execRestart h s
  | .askDirection rq => Sys2Proof.Machine.execAskDirection rq s
  | .refuseOffer rq => Sys2Proof.Machine.execRefuseOffer rq s
  | .linkReset rq => Sys2Proof.Machine.execLinkReset rq s
  | .clearCounters rq => Sys2Proof.Machine.execClearCounters rq s
  | .badTelegram link e => Sys2Proof.Machine.execBadTelegram link e s
  | .unknownKindTelegram link seq => Sys2Proof.Machine.execUnknownKindTelegram link seq s
  | .telegramTransmitted link => Sys2Proof.Machine.execTelegramTransmitted link s
  | .sendTimerExpiry link => Sys2Proof.Machine.execSendTimerExpiry link s
  | .missWatchExpiry link => Sys2Proof.Machine.execMissWatchExpiry link s
  | .losTimerExpiry link => Sys2Proof.Machine.execLosTimerExpiry link s
  | .probe link seq number pattern => Sys2Proof.Machine.execProbe link seq number pattern s
  | .state link seq body => Sys2Proof.Machine.execState link seq body s
  | .offer link seq element reference cls => Sys2Proof.Machine.execOffer link seq element reference cls s
  | .accept link seq reference => Sys2Proof.Machine.execAccept link seq reference s
  | .refuse link seq reference reason => Sys2Proof.Machine.execRefuse link seq reference reason s
  | .offerAnswerExpiry element => Sys2Proof.Machine.execOfferAnswerExpiry element s
  | .withdraw link seq reference => Sys2Proof.Machine.execWithdraw link seq reference s
  | .released link seq reference => Sys2Proof.Machine.execReleased link seq reference s
  | .occupiedBeyond link seq element => Sys2Proof.Machine.execOccupiedBeyond link seq element s
  | .clearedBehind link seq element => Sys2Proof.Machine.execClearedBehind link seq element s
  | .flankAsk link seq reference element required => Sys2Proof.Machine.execFlankAsk link seq reference element required s
  | .flankGiven link seq reference => Sys2Proof.Machine.execFlankGiven link seq reference s
  | .flankRefused link seq reference => Sys2Proof.Machine.execFlankRefused link seq reference s
  | .flankWithdrawn link seq reference => Sys2Proof.Machine.execFlankWithdrawn link seq reference s
  | .flankRelease link seq reference => Sys2Proof.Machine.execFlankRelease link seq reference s
  | .dirAsk link seq element => Sys2Proof.Machine.execDirAsk link seq element s
  | .dirGive link seq element => Sys2Proof.Machine.execDirGive link seq element s
  | .dirDeny link seq element => Sys2Proof.Machine.execDirDeny link seq element s
  | .directionTimerExpiry element => Sys2Proof.Machine.execDirectionTimerExpiry element s
  | .confirmAux rq => Sys2Proof.Machine.execConfirmAux rq s

end Sys2Proof.Machine
end

