-- ==== Sys2Proof/Machine/Lines.lean ====
section
/-! DEFINITION. The receive sides of the serial lines: what a line has brought is taken byte by byte by its receiver, and a whole frame
or telegram, or an error of one, is a command of the table (R122, R165; log 8). -/

namespace Sys2Proof.Machine

/-- A pause of more than `limit` milliseconds stands between the last byte of a frame and the next (R122, R165). -/
def LineInput.paused (x : LineInput) (now : Time) (limit : Nat) : Bool :=
  x.receiver != .hunting && decide (limit < Time.since now x.lastByte)

/-- The next thing a line has brought is taken. A pause inside a frame is judged before the byte that ends it, which stays to be taken by
the hunting receiver. Any number of bytes may wait to be taken without an overrun; an overrun comes as a byte error, from outside
(R165; DESIGN CHOICE, log 62). -/
def LineInput.advance (delimiter : Byte) (declared : Byte → Nat) (limit : Nat) (now : Time) (x : LineInput) : LineInput × Received :=
  match x.arrived with
  | [] => (x, .nothing)
  | e :: rest =>
    if x.paused now limit then
      let r := x.receiver.take delimiter declared .pause
      ({ x with receiver := r.1 }, r.2)
    else
      let r := x.receiver.take delimiter declared e
      (⟨r.1, rest, now⟩, r.2)

/-- The next thing the host line has brought: a pause of more than 1 ms ends a frame (R165). -/
def LineInput.host (now : Time) (x : LineInput) : LineInput × Received := x.advance frameDelimiter declaredLength 1 now

/-- The next thing a port's line has brought: a pause of more than 2 ms ends a telegram (R122). -/
def LineInput.port (now : Time) (x : LineInput) : LineInput × Received := x.advance telegramDelimiter telegramLength 2 now

/-- A port's receive side is written. -/
def State.putPortInput (l : Nat) (x : LineInput) (s : State) : State :=
  { s with inputs := { s.inputs with ports := s.inputs.ports.put l x } }

/-- R165: the host receiver takes what its line has brought next, and what it hands on becomes the command that waits. -/
def State.takeHostInput (s : State) : State :=
  let r := s.inputs.host.host s.time
  { s with inputs := { s.inputs with host := r.1 }, pending := (hostCommand r.2).toList }

/-- R122, R119: a port's receiver takes what its line has brought next. A DISABLED port takes no notice of it. -/
def State.takePortInput (l : Nat) (s : State) : State :=
  let x := s.portInput l
  if (s.link l).state = .disabled then s.putPortInput l { x with receiver := .hunting, arrived := x.arrived.drop 1 }
  else
    let r := x.port s.time
    { s.putPortInput l r.1 with pending := (portCommand l r.2).toList }

end Sys2Proof.Machine
end

