-- ==== Sys2Proof/Machine/TimeBase.lean ====
section
/-! DEFINITION. What the part does of itself while no command waits: the request at the head of its queue is handed on (R167), a
timer that has run out is taken, a receiver takes what its line has brought, and otherwise a millisecond passes (00_scope.md 2, Time Base; log 4). -/

namespace Sys2Proof.Machine

/-- A command that is due when a condition holds. -/
def dueIf (b : Bool) (c : Instr) : List Instr := if b then [c] else []

/-- The answer timer of a requirement has run out. -/
def State.answerDue (s : State) (i j : Nat) : Bool := match s.requirement i j, s.askLink i j with
  | some q, some _ => q.state == .asked && q.answer.expired s.time
  | _, _ => false

/-- The timers of a slot that have run out. -/
def State.dueAtSlot (s : State) (i : Nat) : List Instr :=
  let x := s.slot i
  dueIf (x.pendingTimer.expired s.time && x.state == .pending) (.pendingTimerExpiry i)
    ++ dueIf (x.provingTimer.expired s.time && x.state == .opened) (.provingTimerExpiry i)
    ++ dueIf (x.rel.overlapTimer.expired s.time && x.state == .passing) (.overlapTimerExpiry i)
    ++ dueIf (x.rel.approachTimer.expired s.time && x.state == .approachLocked) (.approachTimerExpiry i)
    ++ dueIf (x.rel.emergencyTimer.expired s.time && x.state == .timedRelease) (.emergencyTimerExpiry i)
    ++ (s.requirementIds i).flatMap (fun j => dueIf (s.answerDue i j) (.flankAskAnswerExpiry i j))

/-- The answer timer of an element's outgoing offer has run out. -/
def State.offerDue (s : State) (e : Nat) : Bool := match (s.boundary e).outgoing with
  | some o => o.answer.expired s.time
  | none => false

/-- The timers of an element that have run out. -/
def State.dueAtElement (s : State) (e : Nat) : List Instr :=
  dueIf ((s.signal e).withdrawal.expired s.time) (.withdrawalSupervisionExpiry e)
    ++ dueIf ((s.throwOf e).timer.expired s.time && (s.throwOf e).state == .moving) (.throwTimerExpiry e)
    ++ dueIf (s.offerDue e) (.offerAnswerExpiry e)
    ++ dueIf ((s.boundary e).dirTimer.expired s.time) (.directionTimerExpiry e)

/-- The timers of a link that have run out. -/
def State.dueAtLink (s : State) (l : Nat) : List Instr :=
  dueIf ((s.link l).sendTimer.expired s.time) (.sendTimerExpiry l)
    ++ dueIf ((s.link l).missWatch.expired s.time) (.missWatchExpiry l)
    ++ dueIf ((s.link l).losTimer.expired s.time) (.losTimerExpiry l)

/-- The timers of the device that have run out. -/
def State.dueAtDevice (s : State) : List Instr :=
  dueIf (s.su.silenceFirst.expired s.time) .hostSilent ++ dueIf (s.su.silenceSecond.expired s.time) .hostSilentLong
    ++ dueIf s.windowOver .auxWindowExpiry
    ++ groupIds.flatMap (fun g => dueIf ((s.powerGroup g).lossTimer.expired s.time) (.supplyLossTimerExpiry g))

/-- Every expiry that is due. -/
def State.dueTimers (s : State) : List Instr :=
  s.dueAtDevice ++ slotIds.flatMap s.dueAtSlot ++ s.cfg.elements.keys.flatMap s.dueAtElement ++ linkIds.flatMap s.dueAtLink

/-- R167: the request at the head of the queue, as the command it is handed on as, while fewer than 16 replies wait. -/
def State.handOn (s : State) : List Instr := match s.host.requests with
  | f :: _ => if s.mayHandOn then [commandOf f] else []
  | [] => []

/-- What may happen next of itself: a command that is due, or a line that has brought something. -/
inductive Occasion where
  | command (c : Instr)
  | hostLine
  | portLine (link : Nat)
  deriving DecidableEq, Repr

/-- The lines that have brought something not yet taken. -/
def State.arrivals (s : State) : List Occasion :=
  (if s.inputs.host.arrived = [] then [] else [.hostLine])
    ++ (linkIds.filter (fun l => decide ((s.portInput l).arrived ≠ []))).map .portLine

/-- Everything that may happen next of itself. -/
def State.occasions (s : State) : List Occasion := (s.handOn ++ s.dueTimers).map .command ++ s.arrivals

/-- One of them happens: a command is put in the queue of commands, or a receiver takes what its line has brought next. -/
def State.occur (o : Occasion) (s : State) : State := match o with
  | .command c => { s with pending := [c] }
  | .hostLine => s.takeHostInput
  | .portLine l => s.takePortInput l

/-- What happens with no command waiting: nothing is due and nothing has arrived, and a millisecond passes; or one of what may happen
does, by a free choice where there are several (log 5). -/
def State.idle (s : State) : State := match s.occasions with
  | [] => { s with time := s.time.plus 1 }
  | [o] => s.occur o
  | os => match os[s.choose.1 % os.length]? with
    | some o => s.choose.2.occur o
    | none => s.choose.2

end Sys2Proof.Machine
end

