-- ==== Sys2Proof/WellFormed.lean ====
section
/-! DEFINITION. Which commands the lines and timers of the part can bring: ids in the ranges of 00_scope.md 7.1, fields that fit
their bytes, telegram bodies within the limits of 11.4. -/

namespace Sys2Proof

/-- A request whose body fits a frame (R179). -/
def Request.ok (rq : Request) : Bool := decide (rq.body.length ≤ 249)
/-- A link id of 0 to 3. -/
def linkOk (l : Nat) : Bool := decide (l < 4)
/-- A slot id of 0 to 31. -/
def slotOk (i : Nat) : Bool := decide (i < 32)
/-- An element id of 0 to 399. -/
def elementOk (e : Nat) : Bool := decide (e < 400)
/-- A field of one byte. -/
def byteOk (n : Nat) : Bool := decide (n < 256)
/-- A field of two bytes. -/
def wordOk (n : Nat) : Bool := decide (n < 65536)

/-- A STATE body within its counts, each field fitting its bytes (11.4). -/
def StateBody.ok (b : StateBody) : Bool :=
  byteOk b.mode && decide (b.asks.length ≤ 16) && decide (b.given.length ≤ 16) && decide (b.entries.length ≤ 8) &&
  b.asks.all wordOk && b.given.all wordOk && b.entries.all (fun e => wordOk e.element && byteOk e.claim)

/-- The command can arrive. -/
def Instr.wellFormed : Instr → Bool
  | .coldReset => true
  | .hostFrameReceived bytes => match judgeFrame bytes with
    | .good _ => true
    | _ => false
  | .badFrame _ => true
  | .unknownKind f => ((requestKind f.kind).isNone || (authorityOf f.authority).isNone) && decide (f.body.length ≤ 249)
  | .transmitLineFree => true
  | .ping rq | .query rq | .configBegin rq | .elementDef rq | .routeDef rq | .linkDef rq | .groupDef rq | .globalParams rq
  | .configEnd rq | .fieldReport rq | .supplyReport rq | .setRoute rq | .commitGroup rq | .cancelGroup rq | .cancelRoute rq
  | .pointThrow rq | .ackFault rq | .prepareAux rq | .askDirection rq | .refuseOffer rq | .linkReset rq | .clearCounters rq
  | .confirmAux rq => rq.ok
  | .withdrawalSupervisionExpiry g => elementOk g
  | .pendingTimerExpiry i | .provingTimerExpiry i | .overlapTimerExpiry i | .approachTimerExpiry i
  | .emergencyTimerExpiry i => slotOk i
  | .flankAskAnswerExpiry i j => slotOk i && decide (j < 12)
  | .throwTimerExpiry p => elementOk p
  | .supplyLossTimerExpiry g => decide (g < 8)
  | .hostSilent | .hostSilentLong | .auxWindowExpiry => true
  | .restoreSection _ e => wordOk e
  | .emergencyRelease _ i => wordOk i
  | .releaseGivenFlank _ l => wordOk l
  | .resume _ | .restart _ => true
  | .badTelegram l _ => linkOk l
  | .unknownKindTelegram l _ | .telegramTransmitted l | .sendTimerExpiry l | .missWatchExpiry l | .losTimerExpiry l => linkOk l
  | .probe l _ _ pattern => linkOk l && decide (pattern.length = 16)
  | .state l _ b => linkOk l && b.ok
  | .offer l _ e r c => linkOk l && wordOk e && byteOk r && byteOk c
  | .accept l _ r | .withdraw l _ r | .released l _ r => linkOk l && byteOk r
  | .refuse l _ r reason => linkOk l && byteOk r && byteOk reason
  | .offerAnswerExpiry e | .directionTimerExpiry e => elementOk e
  | .occupiedBeyond l _ e | .clearedBehind l _ e | .dirAsk l _ e | .dirGive l _ e | .dirDeny l _ e => linkOk l && wordOk e
  | .flankAsk l _ r e q => linkOk l && wordOk r && wordOk e && byteOk q
  | .flankGiven l _ r | .flankRefused l _ r | .flankWithdrawn l _ r | .flankRelease l _ r => linkOk l && wordOk r

end Sys2Proof
end

