-- ==== Sys2Proof/Safety.lean ====
section
/-! DEFINITION. What counts as a safe state: the laws of the manual that its prose states of the whole part, in the terms the
statements use, and the shorthands those statements are written with. -/

namespace Sys2Proof.Machine

/-! ### Laws of every state -/

/-- R157: ENABLE_OUT is high exactly in NORMAL and RESTRICTED. -/
def State.enableAgrees (s : State) : Prop := s.su.enableOut = s.su.mode.enabled

/-- R156: in service, the mode is SAFE_HOLD whenever the cause of a CRITICAL fault is present, the MAJOR count exceeds MAJOR_LIMIT,
or the fault list has overflowed. -/
def State.holdsSafe (s : State) : Prop :=
  s.su.mode.inService = true →
  s.causeOfClass .critical = true ∨ s.cfg.params.majorLimit < s.majorCount ∨ s.su.overflow = true →
  s.su.mode = .safeHold

/-- R166, R168: the request queue holds at most 8 frames, the reply list at most 24 replies. -/
def State.hostBounded (s : State) : Prop :=
  s.host.requests.length ≤ Config.requestPlaces ∧ s.host.replies.length ≤ Config.replyPlaces

/-- R168: the transmit line is idle only when no reply and no report waits. -/
def State.lineServed (s : State) : Prop := s.host.line = none → s.host.replies = [] ∧ s.reports = []

/-- R169: the report queue holds no subject twice. -/
def State.reportsDistinct (s : State) : Prop := s.reports.Nodup

/-- R172, R175: every parameter in force lies in its own range. -/
def State.paramsInRange (s : State) : Prop :=
  ∀ p : Param, p.least ≤ s.cfg.params.get p ∧ s.cfg.params.get p ≤ p.greatest

/-! ### Shorthands of the statements -/

/-- The replies that have been made and have not left whole: the one on the transmit line, and then the reply list. -/
def State.outbox (s : State) : List Reply :=
  (match s.host.line with
    | some (.reply r) => [r]
    | _ => []) ++ s.host.replies

/-- The outcome of a request that its owner has handled, leaving the block in `u`: its reply is made, with an outcome, a
refusal code or 0, and data, and the event ends. -/
def handled (kind : Byte) (rq : Request) (u : State) (o : ReplyOutcome) (reason : Nat) (data : List Byte) :
    Host.Outcome State Fault Refusal :=
  .next (u.replied (requestFrame kind rq) ⟨rq.tag, o, reason, kind, data⟩)

/-- The outcome of a CONFIRM_AUX of a kind for a subject, whose execution left the block in `u`. -/
def confirmed (h : Header) (k : AuxKind) (subject : Nat) (u : State) (o : ReplyOutcome) (reason : Nat) (data : List Byte) :
    Host.Outcome State Fault Refusal :=
  .next (u.replied (confirmFrame h k subject) ⟨h.tag, o, reason, 0x42, data⟩)

/-- A timer runs, and its deadline has been reached. -/
def State.due (s : State) (t : Timer) : Prop := ∃ d, t = .running d ∧ Time.reached s.time d = true

/-- The state in which the Handover Controller takes a telegram from a link that is UP or SUSPECT: the port has counted it and judged
the link's health by it, and what that passes on has been taken (R129). -/
def State.heardFrom (s : State) (l : Nat) (seq : Byte) : State := (s.receive l seq .other).1.settle

/-- The link is UP or SUSPECT: its telegrams are passed on (R129). -/
def State.passesOn (s : State) (l : Nat) : Prop := (s.link l).state = .up ∨ (s.link l).state = .suspect

/-- The outcome of an event that is no request, whose own effect left the block in `u`. -/
def settled (u : State) : Host.Outcome State Fault Refusal := .next u.finish

/-- The fault of a kind is recorded for a subject, in a state of its record. -/
def State.hasFault (s : State) (k : FaultKind) (sub : Subject) (st : RecordState) : Prop :=
  ∃ i r, s.faultOf k sub = some (i, r) ∧ r.state = st

/-- What the releases of an event put on a link that was idle: the first of the telegrams leaves, and the others wait behind it (R120). -/
def State.sends (s t : State) (l : Nat) (told : List Telegram) : Prop :=
  s.passesOn l → (s.link l).sending = none → (s.link l).queue = [] → told.length ≤ 64 →
    (t.link l).sending = told.head?.map (fun x => ((s.link l).txSeq, x)) ∧ (t.link l).queue = told.drop 1

/-- A requirement is HELD by a local candidate on an element (R65). -/
def State.holdsLocally (s : State) (i j e : Nat) : Bool := match s.requirement i j, s.chosen i j with
  | some q, some (.localPoint p _) => q.state == .held && p == e
  | some q, some (.localSignal g) => q.state == .held && g == e
  | _, _ => false

/-- R78: what the release of some requirements of a slot gives up. The count of an element falls by one for each of them that is HELD on
it, and the reference of each ask that was sent on a link is retired there. -/
def State.givesUp (s t : State) (i : Nat) (js : List Nat) : Prop :=
  (∀ e, t.claimCount e = s.claimCount e - (js.filter (fun j => s.holdsLocally i j e)).length) ∧
  ∀ l r, r ∈ (t.link l).retiredAsks ↔ r ∈ (s.link l).retiredAsks ∨
    ∃ j ∈ js, ∃ q, s.requirement i j = some q ∧ s.askLink i j = some l ∧ q.deferred = false ∧ r = i * 16 + j

/-- R78: the FLANK_RELEASE telegrams on a link for the asks among some requirements of a slot. -/
def State.releases (s : State) (i l : Nat) (js : List Nat) : List Telegram :=
  (js.filter (fun j => s.askLink i j == some l)).map (fun j => .flankRelease (i * 16 + j))

/-- An ASKED requirement of a slot has a remote candidate. -/
def State.asksAbroad (s : State) (i : Nat) : Prop :=
  ∀ j q, s.requirement i j = some q → q.state = .asked → ∃ l e w, s.chosen i j = some (.remote l e w)

/-- R66 to R68: a candidate can be had by a slot that holds no claim of its own on it, `more` asks of its trial being counted on each
link. -/
def State.canHave (s : State) (i : Nat) (more : Nat → Nat) : Candidate → Prop
  | .localPoint p pos => (s.throwOf p).state ≠ .faulted ∧ s.lockPosition p ≠ some pos.other ∧
      (s.claimCount p = 0 ∨ s.claimState p = some pos.required) ∧ s.claimCount p < 48 ∧ s.orderedTo p pos.other = false ∧
      (s.detection p = pos.detection ∨ (s.sect (s.containing p)).held = .clear ∧ s.lock p = none)
  | .localSignal g => s.permission g = .stop ∧
      (∀ k, k < 32 → (s.slot k).state = .opened → s.entryOf k ≠ some g) ∧ s.claimCount g < 48
  | .remote l _ _ => (s.link l).state = .up ∧ s.askCount l + more l < 16 ∧ (s.slot i).state ≠ .timedRelease

/-- R148: what a STATE placed on a link shows of the part. -/
structure State.shownBy (s : State) (l : Nat) (b : StateBody) : Prop where
  mode : b.mode = s.su.mode.code
  given : b.given = (s.link l).given.map GivenClaim.reference
  asks : ∀ n, n ∈ b.asks ↔ ∃ i j q e w, i < 32 ∧ n = i * 16 + j ∧ s.requirement i j = some q ∧
    s.chosen i j = some (.remote l e w) ∧ (q.state = .held ∨ q.state = .asked) ∧ q.deferred = false
  entries : b.entries = (s.boundariesOn l).map (fun e => ⟨s.remoteOf e,
    (match s.roleOf e with
      | some .exit => 2
      | some .entry => 3
      | _ => (s.boundary e).direction.code),
    (s.boundary e).outgoing.any (fun o => !o.deferred), (s.boundary e).incoming.any IncomingOffer.accepted,
    (s.boundary e).entrySlot.any (fun i => (s.slot i).state == .passing && (s.slot i).hasBeenOpened)⟩)

/-! ### Route records (R22 to R28, R179) -/

/-- What a candidate names: a local element, or an element over a link (R27). -/
def Candidate.names : Candidate → Option Nat × Nat
  | .localPoint p _ => (none, p)
  | .localSignal g => (none, g)
  | .remote l e _ => (some l, e)

/-- A candidate that a route may have (R27). -/
def RouteDef.mayUse (d : RouteDef) : Candidate → Prop
  | .localPoint p _ => p ≤ 399 ∧ p ∉ d.allPoints.map PointReq.point
  | .localSignal g => g ≤ 399 ∧ g ≠ d.entry
  | .remote l e _ => l ≤ 3 ∧ e ≤ 399

/-- A route definition that passes every check a ROUTE_DEF is put to (R22 to R28). -/
structure RouteDef.sound (d : RouteDef) : Prop where
  ends : d.entry ≤ 399 ∧ d.exit ≤ 399 ∧ d.exit ≠ d.entry
  path : 1 ≤ d.path.length ∧ d.path.length ≤ 16 ∧ (∀ e ∈ d.path, e ≤ 399) ∧ d.path.Nodup
  points : d.points.length ≤ 16 ∧ (∀ q ∈ d.allPoints, q.point ≤ 399) ∧ (d.allPoints.map PointReq.point).Nodup
  overlap : ∀ o, d.overlap = some o → d.cls = .main ∧ o.sections.length ≤ 4 ∧ o.points.length ≤ 4 ∧
    (∀ e ∈ o.sections, e ≤ 399) ∧ d.allSections.Nodup ∧ o.release ≤ 1200
  flank : d.flank.length ≤ 12 ∧ (∀ q ∈ d.flank, q.guarded ∈ d.allPoints.map PointReq.point ∧
    1 ≤ q.candidates.length ∧ q.candidates.length ≤ 3 ∧ ∀ c ∈ q.candidates, d.mayUse c)
  candidates : ((d.flank.flatMap FlankReq.candidates).map Candidate.names).Nodup
  approach : d.approach.length ≤ 3 ∧ (∀ e ∈ d.approach, e ≤ 399) ∧ d.approach.Nodup ∧
    (∀ e ∈ d.approach, e ∉ d.allSections) ∧ (d.cls = .entry → d.approach = [])
  times : 100 ≤ d.vmax ∧ d.vmax ≤ 12000 ∧ 10 ≤ d.decel ∧ d.decel ≤ 150 ∧ d.reaction ≤ 30000 ∧
    50 ≤ d.fixedTime ∧ d.fixedTime ≤ 3000

/-- An element word: a qualifier in its top 2 bits, an element id in the rest (R178). -/
def wordBytes (qualifier id : Nat) : List Byte := bytes2 (qualifier * 16384 + id)
/-- A counted list of section ids. -/
def listBytes (l : List Nat) : List Byte := bytes1 l.length ++ l.flatMap bytes2
/-- A counted list of point requirements. -/
def pointBytes (l : List PointReq) : List Byte :=
  bytes1 l.length ++ l.flatMap (fun q => wordBytes q.position.code q.point)
/-- A candidate: its kind byte and its element word. -/
def candidateBytes : Candidate → List Byte
  | .localPoint p pos => bytes1 1 ++ wordBytes pos.code p
  | .localSignal g => bytes1 2 ++ wordBytes 0 g
  | .remote l e q => bytes1 (16 + l) ++ wordBytes q.code e
/-- The body of a ROUTE_DEF, as R179 lays it out. -/
def routeBody (id : Nat) (d : RouteDef) : List Byte :=
  bytes2 id ++ bytes1 d.cls.code ++ bytes2 d.entry ++ bytes2 d.exit ++ listBytes d.path ++ pointBytes d.points
    ++ (match d.overlap with
      | none => bytes1 0
      | some o => bytes1 1 ++ listBytes o.sections ++ pointBytes o.points ++ bytes2 o.release)
    ++ bytes1 d.flank.length
    ++ d.flank.flatMap (fun q => wordBytes q.candidates.length q.guarded ++ q.candidates.flatMap candidateBytes)
    ++ listBytes d.approach ++ bytes2 d.vmax ++ bytes1 d.decel ++ bytes2 d.reaction ++ bytes2 d.fixedTime

/-! ### What a record or a reference fails (R2, R22 to R29)

Every failure of a record, in the order in which its rules name them: the first of them is the one a refusal carries (R21, R173). -/

/-- The failure of a condition that must hold. -/
def failsUnless (ok : Bool) (f : Field) (entry : Nat) : List Failure := if ok then [] else [⟨f, entry, 0⟩]

/-- The failures at the entries of a list, each under its place; a test sees the place too. -/
def failsAt {α : Type} (f : Field) (l : List α) (bad : Nat → α → Bool) : List Failure :=
  (l.zipIdx.filter (fun x => bad x.2 x.1)).map (fun x => ⟨f, x.2, 0⟩)

/-- A number stands in a list before a place. -/
def standsBefore (l : List Nat) (k n : Nat) : Bool := (l.take k).contains n

/-- Every check of R22 to R28 that a ROUTE_DEF body fails. -/
def RawRoute.failures (r : RawRoute) : List Failure :=
  let own := (r.points ++ r.ovPoints).map wordId
  let badWord (w : Nat) : Bool := decide (399 < wordId w) || (wordQualifier w != 1 && wordQualifier w != 2)
  let names (c : Nat × Nat) : Option Nat × Nat := (if 16 ≤ c.1 then some (c.1 - 16) else none, wordId c.2)
  failsUnless (decide (r.id ≤ 255)) .routeId 0
  ++ failsUnless (r.cls == 1 || r.cls == 2 || r.cls == 3) .cls 0
  ++ failsUnless (decide (r.entry ≤ 399)) .entry 0
  ++ failsUnless (decide (r.exit ≤ 399) && r.exit != r.entry) .exit 0
  ++ failsUnless (decide (1 ≤ r.path.length) && decide (r.path.length ≤ 16)) .path 0
  ++ failsAt .path r.path (fun k e => decide (399 < e) || standsBefore r.path k e)
  ++ failsUnless (decide (r.points.length ≤ 16)) .points 0
  ++ failsAt .points r.points (fun _ w => badWord w)
  ++ failsAt .points r.points (fun k w => standsBefore (r.points.map wordId) k (wordId w))
  ++ failsUnless (r.overlap == 0 || r.overlap == 1 && r.cls == 1) .overlap 0
  ++ failsUnless (decide (r.ovSections.length ≤ 4)) .overlapSections 0
  ++ failsUnless (decide (r.ovPoints.length ≤ 4)) .overlapPoints 0
  ++ failsAt .overlapSections r.ovSections (fun k e => decide (399 < e) || standsBefore r.ovSections k e || r.path.contains e)
  ++ failsAt .overlapPoints r.ovPoints (fun _ w => badWord w)
  ++ failsAt .overlapPoints r.ovPoints (fun k w => standsBefore own (r.points.length + k) (wordId w))
  ++ failsUnless (decide (r.ovTime ≤ 1200)) .overlapTime 0
  ++ failsUnless (decide (r.flank.length ≤ 12)) .flank 0
  ++ failsAt .flank r.flank (fun _ q => !own.contains (wordId q.1))
  ++ failsAt .flank r.flank (fun _ q => q.2.isEmpty)
  ++ r.flank.zipIdx.flatMap (fun q => (q.1.2.zipIdx.filter (fun c =>
      let earlier := (r.flank.take q.2).flatMap Prod.snd ++ q.1.2.take c.2
      let fits : Bool := match c.1.1 with
        | 1 => !badWord c.1.2 && !own.contains (wordId c.1.2)
        | 2 => decide (wordId c.1.2 ≤ 399) && wordId c.1.2 != r.entry
        | k => decide (16 ≤ k) && decide (k ≤ 19) && decide (wordId c.1.2 ≤ 399) && [1, 2, 3].contains (wordQualifier c.1.2)
      !fits || (earlier.map names).contains (names c.1))).map (fun c => ⟨.flank, q.2, c.2⟩))
  ++ failsUnless (decide (r.approach.length ≤ 3)) .approach 0
  ++ failsAt .approach r.approach (fun k e =>
      decide (399 < e) || standsBefore r.approach k e || r.path.contains e || r.ovSections.contains e)
  ++ failsUnless (r.cls != 3 || r.approach.isEmpty) .approach 0
  ++ failsUnless (decide (100 ≤ r.vmax) && decide (r.vmax ≤ 12000)) .vmax 0
  ++ failsUnless (decide (10 ≤ r.decel) && decide (r.decel ≤ 150)) .deceleration 0
  ++ failsUnless (decide (r.reaction ≤ 30000)) .reaction 0
  ++ failsUnless (decide (50 ≤ r.fixedTime) && decide (r.fixedTime ≤ 3000)) .fixedTime 0

/-- The bytes of a ROUTE_DEF body, whatever its fields hold (R179). -/
def RawRoute.bytes (r : RawRoute) : List Byte :=
  bytes2 r.id ++ bytes1 r.cls ++ bytes2 r.entry ++ bytes2 r.exit ++ listBytes r.path ++ listBytes r.points ++ bytes1 r.overlap
    ++ (if r.overlap = 1 then listBytes r.ovSections ++ listBytes r.ovPoints ++ bytes2 r.ovTime else [])
    ++ bytes1 r.flank.length
    ++ r.flank.flatMap (fun q => bytes2 q.1 ++ q.2.flatMap (fun c => bytes1 c.1 ++ bytes2 c.2))
    ++ listBytes r.approach ++ bytes2 r.vmax ++ bytes1 r.decel ++ bytes2 r.reaction ++ bytes2 r.fixedTime

/-- The fields of a ROUTE_DEF body fit their bytes, and each requirement's qualifier is the number of its candidates (R179). -/
structure RawRoute.fits (r : RawRoute) : Prop where
  bytes : r.cls < 256 ∧ r.overlap < 256 ∧ r.decel < 256 ∧ r.path.length < 256 ∧ r.points.length < 256 ∧ r.ovSections.length < 256 ∧
    r.ovPoints.length < 256 ∧ r.flank.length < 256 ∧ r.approach.length < 256
  words : ∀ n ∈ [r.id, r.entry, r.exit, r.ovTime, r.vmax, r.reaction, r.fixedTime] ++ r.path ++ r.points ++ r.ovSections ++ r.ovPoints ++
    r.approach, n < 65536
  flank : ∀ q ∈ r.flank, q.1 < 65536 ∧ wordQualifier q.1 = q.2.length ∧ ∀ c ∈ q.2, c.1 < 256 ∧ c.2 < 65536
  overlap : r.overlap ≠ 1 → r.ovSections = [] ∧ r.ovPoints = [] ∧ r.ovTime = 0

/-- Every reference of an element that is not satisfied (R2). -/
def State.elementFaults (s : State) (e : Nat) : List Failure := match s.defn e with
  | some (.point within group _ _ _) =>
    failsUnless (s.isSection within) .containingSection 0 ++ failsUnless (s.cfg.groups.find group).isSome .powerGroup 0
  | some (.boundary l remote _ adjacent) =>
    failsUnless (s.cfg.links.find l).isSome .link 0 ++ failsUnless (s.isSection adjacent) .adjacentSection 0
    ++ failsUnless (s.cfg.elements.entries.all (fun x => match x.2 with
      | .boundary m other _ _ => x.1 == e || m != l || other != remote
      | _ => true)) .remoteId 0
  | _ => []

/-- Every reference of a route that is not satisfied (R29). -/
def State.routeFaults (s : State) (r : RouteDef) : List Failure :=
  let roleIn (e : Nat) (roles : List Role) : Bool := match s.defn e with
    | some (.boundary _ _ role _) => roles.contains role
    | _ => false
  let liesIn (sections : List Nat) (p : Nat) : Bool := match s.defn p with
    | some (.point within _ _ _ _) => sections.contains within
    | _ => false
  failsUnless (if r.cls = .entry then roleIn r.entry [.entry, .both] else s.isSignal r.entry) .entry 0
  ++ failsUnless (s.isSignal r.exit || r.cls != .entry && roleIn r.exit [.exit, .both]) .exit 0
  ++ failsAt .path r.path (fun _ e => !s.isSection e)
  ++ failsUnless (r.cls != .entry || r.path.head? == some (s.adjacentOf r.entry)) .path 0
  ++ failsUnless (!s.isBoundary r.exit || r.path.getLast? == some (s.adjacentOf r.exit)) .path (r.path.length - 1)
  ++ failsAt .points r.points (fun _ q => !liesIn r.path q.point)
  ++ failsUnless (r.overlap.isNone || s.isSignal r.exit) .overlap 0
  ++ failsAt .overlapSections r.overlapSections (fun _ e => !s.isSection e)
  ++ failsAt .overlapPoints r.overlapPoints (fun _ q => !liesIn r.overlapSections q.point)
  ++ r.flank.zipIdx.flatMap (fun q => (q.1.candidates.zipIdx.filter (fun c => match c.1 with
      | .localPoint p _ => !s.isPoint p
      | .localSignal g => !s.isSignal g
      | .remote l _ _ => (s.cfg.links.find l).isNone)).map (fun c => ⟨.flank, q.2, c.2⟩))
  ++ failsAt .approach r.approach (fun _ e => !s.isSection e)

/-! ### The fault list (R151) -/

/-- R151: the list holds its records under rising indices of 0 to 31, and at most one record for each kind and subject. -/
def State.faultListWhole (s : State) : Prop :=
  s.su.faults.keys.Pairwise (· < ·) ∧ (∀ i ∈ s.su.faults.keys, i < 32) ∧
  (s.su.faults.entries.map (fun p => (p.2.kind, p.2.subject))).Nodup

/-! ### Laws of the configuration and of the blocks' tables

Each is kept by every step from a state that meets it together with the laws it names, and holds after reset. -/

/-- R2, R29, R171, R172: the configuration tables are in key order, every id and every route record passes its own checks; in service
every reference is satisfied, and a link that no LINK_DEF defines is DISABLED with no given claim; out of service the blocks hold
nothing. -/
structure State.configured (s : State) : Prop where
  elements : s.cfg.elements.keys.Pairwise (· < ·) ∧ ∀ e ∈ s.cfg.elements.keys, e ≤ 399
  routes : s.cfg.routes.keys.Pairwise (· < ·) ∧ ∀ r d, s.routeDef r = some d → r ≤ 255 ∧ d.sound
  links : s.cfg.links.keys.Pairwise (· < ·) ∧ ∀ l ∈ s.cfg.links.keys, l ≤ 3
  groups : s.cfg.groups.keys.Pairwise (· < ·) ∧ ∀ g n, s.cfg.groups.find g = some n → g ≤ 7 ∧ 1 ≤ n ∧ n ≤ 4
  references : s.su.mode.inService = true → s.elementFailure = none ∧ s.routeFailure = none
  ports : ∀ l, s.su.mode.inService = false ∨ s.cfg.links.find l = none → (s.link l).state = .disabled ∧ (s.link l).given = [] ∧
    (s.link l).sendTimer = .stopped ∧ (s.link l).missWatch = .stopped ∧ (s.link l).losTimer = .stopped
  empty : s.su.mode.inService = false → s.locking = {} ∧ s.claims = {} ∧ s.movement = {} ∧ s.boundaries = {} ∧ s.field = {} ∧
    s.su.silenceFirst = .stopped ∧ s.su.silenceSecond = .stopped

/-- R1: an own limit is given exactly when it applies, and then within its range. -/
def limitSound (least greatest : Nat) (individual : Bool) : Option Nat → Prop
  | some n => individual = true ∧ least ≤ n ∧ n ≤ greatest
  | none => individual = false

/-- R1: the checks on one element's record. -/
def ElementDef.sound : ElementDef → Prop
  | .sect n => 1 ≤ n ∧ n ≤ 4095
  | .point _ g _ individual own => g ≤ 7 ∧ limitSound 1000 30000 individual own
  | .signal individual own => limitSound 500 10000 individual own
  | .boundary l remote _ _ => l ≤ 3 ∧ remote ≤ 399

/-- R118: the checks on one link's effective values. -/
def LinkParams.sound (p : LinkParams) : Prop :=
  100 ≤ p.period ∧ p.period ≤ 1000 ∧ 2 * p.period ≤ p.los ∧ p.los ≤ 10000 ∧ 3 ≤ p.inLock ∧ p.inLock ≤ 32 ∧
  2 ≤ p.outLock ∧ p.outLock ≤ 16 ∧ 1000 ≤ p.answer ∧ p.answer ≤ 60000

/-- R1, R118: every element record and every link record passes its own checks, and the element table keeps its capacities. -/
structure State.recordsSound (s : State) : Prop where
  elements : ∀ x ∈ s.cfg.elements.entries, x.1 ≤ 399 ∧ x.2.sound
  points : (s.cfg.elements.entries.filter (fun x => match x.2 with
    | .point .. => true
    | _ => false)).length ≤ 128
  signals : (s.cfg.elements.entries.filter (fun x => match x.2 with
    | .signal .. => true
    | _ => false)).length ≤ 96
  boundaries : (s.cfg.elements.entries.filter (fun x => match x.2 with
    | .boundary .. => true
    | _ => false)).length ≤ 32
  onLink : ∀ l, (s.cfg.elements.entries.filter (fun x => match x.2 with
    | .boundary m _ _ _ => m == l
    | _ => false)).length ≤ 8
  links : ∀ x ∈ s.cfg.links.entries, x.1 ≤ 3 ∧ x.2.sound

/-- R36, R37, R40: a slot in use is one of the 32 and holds a stored route; a FREE one holds no route and no requirement; every lock is
held by a slot in use whose route locks its element; no two slots in use have the same entry. -/
structure State.locksLawful (s : State) : Prop where
  used : ∀ i, (s.slot i).state ≠ .free → i < 32 ∧ ∃ r, s.routeOf i = some r
  free : ∀ i, (s.slot i).state = .free → (s.slot i).route = none ∧ (s.slot i).requirements = []
  held : ∀ e l, s.lock e = some l → (s.slot l.holder).state ≠ .free ∧ ∃ r, s.routeOf l.holder = some r ∧ e ∈ r.lockOrder
  entries : ∀ i k r d, (s.slot i).state ≠ .free → (s.slot k).state ≠ .free → s.routeOf i = some r → s.routeOf k = some d →
    r.entry = d.entry → i = k

/-- R56: a signal has permission PROCEED only while it has a flank claim count of 0 and exactly one slot in state OPEN has it as
entry. -/
def State.permissionsLawful (s : State) : Prop :=
  ∀ g, s.permission g = .proceed → s.claimCount g = 0 ∧
    ∃ i, (s.slot i).state = .opened ∧ s.entrySignal i = some g ∧
      ∀ k, (s.slot k).state = .opened → s.entrySignal k = some g → k = i

/-- R88: the queue of a power group is its QUEUED points, each once, and no more of its points are MOVING than its limit. -/
def State.movesLawful (s : State) : Prop :=
  ∀ g, (s.powerGroup g).queue.Nodup ∧
    (∀ p, p ∈ (s.powerGroup g).queue ↔ p ∈ s.pointsOf g ∧ (s.throwOf p).state = .queued) ∧ s.movingCount g ≤ s.groupLimit g

/-- 08, 8.1: a boundary element never has both offers, and an outgoing one only while its role is EXIT or its direction OUTBOUND. -/
def State.offersLawful (s : State) : Prop :=
  ∀ e o, (s.boundary e).outgoing = some o → (s.boundary e).incoming = none ∧
    (s.roleOf e = some .exit ∨ s.roleOf e = some .both ∧ (s.boundary e).direction = .outbound)

/-- R55, R56, R58: once an event is carried to its end, an OPEN slot has no reason to wait, a LOCKED one has some and shows them, and any
other shows none. -/
def State.slotsSettled (s : State) : Prop :=
  ∀ i, ((s.slot i).state ≠ .locked → (s.slot i).waiting = {}) ∧
    (s.work = [] → ((s.slot i).state = .opened → s.failing i = {}) ∧
      ((s.slot i).state = .locked → s.failing i ≠ {} ∧ (s.slot i).waiting = s.failing i))

/-- The requirements that hold a claim of their own on an element (R65). -/
def State.localHolders (s : State) (e : Nat) : List (Nat × Nat) :=
  s.allRequirements.filter (fun p => s.ownClaim p.1 p.2 == some e)

/-- The claims given to the neighbours on an element (R79). -/
def State.givenHolders (s : State) (e : Nat) : List GivenClaim :=
  linkIds.flatMap (fun l => (s.link l).given.filter (fun c => c.element == e))

/-- R64, R65, R79: the claim count of an element is the number of requirements HELD on it by a local candidate and of claims given on it,
and every one of them requires the state the claim record names: STOP of a signal, a position of a point. An ASKED requirement has a
remote candidate, and no reference is given twice on a link. -/
structure State.claimsLawful (s : State) : Prop where
  counts : ∀ e, s.claimCount e = (s.localHolders e).length + (s.givenHolders e).length
  kinds : ∀ e c, s.claim e = some c → 1 ≤ c.count ∧ c.count ≤ 48 ∧ (c.required = .stop → s.isSignal e = true) ∧
    (c.required ≠ .stop → s.isPoint e = true)
  points : ∀ i j p pos q, s.requirement i j = some q → q.state = .held → s.chosen i j = some (.localPoint p pos) →
    s.claimState p = some pos.required
  given : ∀ l c, c ∈ (s.link l).given → s.claimState c.element = some c.required
  references : ∀ l, ((s.link l).given.map GivenClaim.reference).Nodup
  asked : ∀ i j q, s.requirement i j = some q → q.state = .asked → ∃ l e w, s.chosen i j = some (.remote l e w)

/-- R42, R66, R84: a point's lock and claims require one position, and it has no throw order to the other; a PENDING slot holds the lock
of every point of its route, in the position the route gives. -/
structure State.ordersLawful (s : State) : Prop where
  agree : ∀ p pos q, s.lockPosition p = some pos → s.claimState p = some q → q = pos.required
  orders : ∀ p pos pos', s.orderedTo p pos = true → s.lockPosition p = some pos' ∨ s.claimPosition p = some pos' → pos' = pos
  pendings : ∀ i r q, (s.slot i).state = .pending → s.routeOf i = some r → q ∈ r.allPoints →
    ∃ l, s.lock q.point = some l ∧ l.holder = i ∧ l.required = some q.position

/-! ### Telegrams as commands -/

/-- A telegram fits its fields (R181). -/
def Telegram.fits : Telegram → Bool
  | .probe _ pattern => pattern.length == 16
  | .state b => b.ok
  | .offer e r c => wordOk e && byteOk r && byteOk c
  | .accept r | .withdraw r | .released r => byteOk r
  | .refuse r reason => byteOk r && byteOk reason
  | .occupiedBeyond e | .clearedBehind e | .dirAsk e | .dirGive e | .dirDeny e => wordOk e
  | .flankAsk r e q => wordOk r && wordOk e && byteOk q
  | .flankGiven r | .flankRefused r | .flankWithdrawn r | .flankRelease r => wordOk r

/-- The command that a telegram is to the part that receives it on a link, under the sequence of its envelope (R181). -/
def Telegram.command (l : Nat) (seq : Byte) : Telegram → Instr
  | .probe n pattern => .probe l seq n pattern
  | .state b => .state l seq b
  | .offer e r c => .offer l seq e r c
  | .accept r => .accept l seq r
  | .refuse r reason => .refuse l seq r reason
  | .withdraw r => .withdraw l seq r
  | .released r => .released l seq r
  | .occupiedBeyond e => .occupiedBeyond l seq e
  | .clearedBehind e => .clearedBehind l seq e
  | .flankAsk r e q => .flankAsk l seq r e q
  | .flankGiven r => .flankGiven l seq r
  | .flankRefused r => .flankRefused l seq r
  | .flankWithdrawn r => .flankWithdrawn l seq r
  | .flankRelease r => .flankRelease l seq r
  | .dirAsk e => .dirAsk l seq e
  | .dirGive e => .dirGive l seq e
  | .dirDeny e => .dirDeny l seq e

end Sys2Proof.Machine
end

