-- ==== Sys2Proof/Certificates/Slice0/Obligations.lean ====
section
/-! DEFINITION. The statements for the provers. Each is closed over every state that meets its hypotheses, reachable or not. A
conclusion `∃ u, exec c s = settled u ∧ …` (or `handled`, `confirmed`) says what the command itself does: `u` is the block before the
cascade that ends every event; ReplyIsMade says what that end leaves alone. -/

open Sys2Proof Sys2Proof.Machine

/-! ### The step and the host link -/

/-- A step takes the command at the front of the queue, and is exec of it with the queue's rest. -/
def Obligations.StepTakesTheFront : Prop :=
  ∀ (c : Instr) (rest : List Instr) (s : State), s.pending = c :: rest → step s = exec c { s with pending := rest }

/-- Every command ends in a next state, and leaves the queue of commands as it is. None but a cold reset touches the receive sides of the
lines, which the model's idle steps alone advance (log 8). -/
def Obligations.EveryCommandCompletes : Prop :=
  ∀ (c : Instr) (s : State), ∃ t, exec c s = .next t ∧ t.pending = s.pending ∧ (t.inputs = s.inputs ∨ c = .coldReset)

/-- The model's choice of what a step does with no command waiting (logs 4, 8): a millisecond passes when nothing is due and no line has
brought anything; otherwise one of what is due is put in the queue, or a receiver takes what its line has brought next. -/
def Obligations.IdleTakesWhatIsDue : Prop :=
  ∀ s : State, s.pending = [] →
    let due := s.handOn ++ s.dueTimers
    let arrived : Prop := s.inputs.host.arrived ≠ [] ∨ ∃ l, l < 4 ∧ (s.portInput l).arrived ≠ []
    (due = [] → ¬ arrived → step s = .next { s with time := s.time.plus 1 }) ∧
    (due ≠ [] ∨ arrived → ∃ n : Nat,
      let t : State := { s with choices := n }
      (∃ c ∈ due, step s = .next { t with pending := [c] }) ∨
      (s.inputs.host.arrived ≠ [] ∧ step s = .next t.takeHostInput) ∨
      ∃ l, l < 4 ∧ (s.portInput l).arrived ≠ [] ∧ step s = .next (t.takePortInput l))

/-- A frame encoded is judged to be that frame, and with any other two bytes in place of its CRC it is a CRC error (R165, R179). A hunting
receiver that is brought the bytes of a frame one by one hands on nothing before the last of them, and then the whole frame, which is the
command of its reception; bytes that are not the delimiter change nothing before it (R165). The receiver of State takes what its line has
brought in the same way: a byte error is counted by itself while hunting and ends a frame while gathering, a length of 1 to 5 is a length
error, and after more than 1 ms inside a frame the frame ends as a length error and the byte that came then is kept for the hunting
receiver; that the pause is judged when the next byte is taken, at whole milliseconds, is the model's choice (log 8). A reply and a report
leave as R179 lays a frame out. -/
def Obligations.FramesAreRead : Prop :=
  (∀ f : HostFrame, f.body.length ≤ 249 → (f.authority = none → f.body = []) →
    judgeFrame (encodeFrame f) = .good f ∧
    ∀ x y : Byte, [x, y] ≠ crc16Bytes (loByte ((frameInner f).length + 4) :: frameInner f) →
      judgeFrame (frameDelimiter :: loByte ((frameInner f).length + 4) :: (frameInner f ++ [x, y])) = .bad .crc) ∧
  let take := Receiver.take frameDelimiter declaredLength
  (∀ b : Byte, b ≠ frameDelimiter → take .hunting (.byte b) = (.hunting, .nothing)) ∧
  (∀ f : HostFrame, f.body.length ≤ 249 → (f.authority = none → f.body = []) →
    (∀ n, n < (encodeFrame f).length →
      ((encodeFrame f).take n).foldl (fun r b => ((take r.1 (.byte b)).1, r.2 ++ [(take r.1 (.byte b)).2])) (Receiver.hunting, [])
        = (if n = 0 then Receiver.hunting else .gathering ((encodeFrame f).take n), List.replicate n .nothing)) ∧
    (take (.gathering ((encodeFrame f).dropLast)) (.byte ((encodeFrame f).getLastD 0))) = (.hunting, .whole (encodeFrame f)) ∧
    hostCommand (.whole (encodeFrame f)) = some (.hostFrameReceived (encodeFrame f))) ∧
  (∀ (s : State) (e : LineEvent) (rest : List LineEvent), s.inputs.host.arrived = e :: rest →
    let x := s.inputs.host
    let becomes (y : LineInput) (c : Option Instr) : Prop :=
      s.takeHostInput = { s with inputs := { s.inputs with host := y }, pending := c.toList }
    let takes (r : Receiver) (c : Option Instr) : Prop := becomes ⟨r, rest, s.time⟩ c
    let late : Prop := 1 < (s.time - x.lastByte).toNat
    (∀ l, x.receiver = .gathering l → late → becomes { x with receiver := .hunting } (some (.badFrame .length))) ∧
    (x.receiver = .hunting →
      (∀ b, e = .byte b → if b = 0x5A then takes (.gathering [b]) none else takes .hunting none) ∧
      (e = .byteError → takes .hunting (some (.badFrame .hunting)))) ∧
    ∀ l, x.receiver = .gathering l → ¬ late →
      (e = .byteError → takes .hunting (some (.badFrame .byte))) ∧
      ∀ b, e = .byte b →
        (∀ d, l = [d] → if 1 ≤ b ∧ b ≤ 5 then takes .hunting (some (.badFrame .length)) else takes (.gathering [d, b]) none) ∧
        ∀ d n m, l = d :: n :: m → n = 0 ∨ 6 ≤ n →
          if m.length + 3 = (if n = 0 then 256 else n.toNat) then takes .hunting (hostCommand (.whole (l ++ [b])))
          else takes (.gathering (l ++ [b])) none) ∧
  let framed (counted : List Byte) : List Byte := 0x5A :: (counted ++ bytes2 (crc16 counted).toNat)
  (∀ r : Reply, (LineFrame.reply r).bytes = framed (loByte (r.data.length + 10) :: 0x80 :: r.tag :: 0 ::
    (match r.outcome with
      | .done => 1
      | .accepted => 2
      | .refused => 3) :: loByte r.reason :: r.kind :: r.data)) ∧
  ∀ (kind : Byte) (body : List Byte), (LineFrame.report kind body).bytes = framed (loByte (body.length + 7) :: kind :: 0 :: 0 :: body)

/-- A telegram sent by one part is, byte for byte, the command of its kind to the part that receives it (R122, R181). A run of bytes that
opens with the delimiter is judged by its length, its CRC, its kind and its kind's length, in this order; one that does not is no command.
The receiver of a port in State takes what its line has brought: a byte error is counted by itself while hunting and ends a telegram while
gathering, a length below 6 is a length error, and after more than 2 ms inside a telegram it ends as a length error and the byte that came
then is kept for the hunting receiver; a DISABLED port discards the byte and hunts. That the pause is judged when the next byte is taken,
at whole milliseconds, and that a DISABLED port takes its bytes away, is the model's choice (log 8). -/
def Obligations.TelegramsDecode : Prop :=
  (∀ (l : Nat) (seq : Byte) (t : Telegram), t.fits = true → telegramCommand l (telegramBytes seq t) = some (t.command l seq)) ∧
  (∀ l : Nat,
    (∀ d rest, d ≠ 0xC3 → telegramCommand l (d :: rest) = none) ∧
    (∀ (n : Byte) rest, n < 6 ∨ rest.length + 2 ≠ n.toNat → telegramCommand l (0xC3 :: n :: rest) = some (.badTelegram l .length)) ∧
    ∀ (n kind seq x y : Byte) (body : List Byte), body.length + 6 = n.toNat →
      let whole := 0xC3 :: n :: kind :: seq :: (body ++ [x, y])
      ([x, y] ≠ bytes2 (crc16 (n :: kind :: seq :: body)).toNat → telegramCommand l whole = some (.badTelegram l .crc)) ∧
      ([x, y] = bytes2 (crc16 (n :: kind :: seq :: body)).toNat →
        (kind ∉ [(0x01 : Byte), 0x02, 0x10, 0x11, 0x12, 0x13, 0x14, 0x18, 0x19, 0x20, 0x21, 0x22, 0x23, 0x24, 0x28, 0x29, 0x2A] →
          telegramCommand l whole = some (.unknownKindTelegram l seq)) ∧
        (∀ k m, (k, m) ∈ [((0x02 : Byte), 17), (0x10, 4), (0x11, 1), (0x12, 2), (0x13, 1), (0x14, 1), (0x18, 2), (0x19, 2), (0x20, 5),
            (0x21, 2), (0x22, 2), (0x23, 2), (0x24, 2), (0x28, 2), (0x29, 2), (0x2A, 2)] → kind = k → body.length ≠ m →
          telegramCommand l whole = some (.badTelegram l .length)) ∧
        (kind = 0x01 → readStateBody body = none → telegramCommand l whole = some (.badTelegram l .length)))) ∧
  ∀ (s : State) (l : Nat) (e : LineEvent) (rest : List LineEvent), (s.portInput l).arrived = e :: rest →
    let x := s.portInput l
    let becomes (y : LineInput) (c : List Instr) : Prop :=
      s.takePortInput l = { s with inputs := { s.inputs with ports := s.inputs.ports.put l y }, pending := c }
    let takes (r : Receiver) (c : Option Instr) : Prop := becomes ⟨r, rest, s.time⟩ c.toList
    let late : Prop := 2 < (s.time - x.lastByte).toNat
    ((s.link l).state = .disabled → becomes { x with receiver := .hunting, arrived := rest } s.pending) ∧
    ((s.link l).state ≠ .disabled →
      (∀ m, x.receiver = .gathering m → late → becomes { x with receiver := .hunting } [.badTelegram l .length]) ∧
      (x.receiver = .hunting →
        (∀ b, e = .byte b → if b = 0xC3 then takes (.gathering [b]) none else takes .hunting none) ∧
        (e = .byteError → takes .hunting (some (.badTelegram l .hunting)))) ∧
      ∀ m, x.receiver = .gathering m → ¬ late →
        (e = .byteError → takes .hunting (some (.badTelegram l .byte))) ∧
        ∀ b, e = .byte b →
          (∀ d, m = [d] → if b < 6 then takes .hunting (some (.badTelegram l .length)) else takes (.gathering [d, b]) none) ∧
          ∀ d n k, m = d :: n :: k → 6 ≤ n →
            if k.length + 3 = n.toNat then takes .hunting (telegramCommand l (m ++ [b])) else takes (.gathering (m ++ [b])) none)

/-- R167: the request at the head of the queue is handed on as the command of its kind while fewer than 16 replies wait, and while 16 or
more wait none is. That a request command which comes while 16 or more replies wait has no effect is the model's choice (log 40). R168,
R169: when the line becomes free, the oldest reply begins; with none, the report of the subject at the head of the report queue, with its
content taken now; with neither, the line is idle. -/
def Obligations.RequestsAreHandedOn : Prop :=
  ((∀ (s : State) (f : HostFrame) (rest : List HostFrame), s.host.requests = f :: rest →
    s.handOn = if s.host.replies.length < 16 then [commandOf f] else []) ∧
  ∀ rq : Request,
    commandOf (requestFrame 0x01 rq) = .ping rq ∧ commandOf (requestFrame 0x02 rq) = .query rq ∧
    commandOf (requestFrame 0x08 rq) = .configBegin rq ∧ commandOf (requestFrame 0x09 rq) = .configEnd rq ∧
    commandOf (requestFrame 0x0A rq) = .elementDef rq ∧ commandOf (requestFrame 0x0B rq) = .routeDef rq ∧
    commandOf (requestFrame 0x0C rq) = .linkDef rq ∧ commandOf (requestFrame 0x0D rq) = .groupDef rq ∧
    commandOf (requestFrame 0x0E rq) = .globalParams rq ∧ commandOf (requestFrame 0x10 rq) = .fieldReport rq ∧
    commandOf (requestFrame 0x11 rq) = .supplyReport rq ∧ commandOf (requestFrame 0x20 rq) = .setRoute rq ∧
    commandOf (requestFrame 0x21 rq) = .cancelRoute rq ∧ commandOf (requestFrame 0x22 rq) = .commitGroup rq ∧
    commandOf (requestFrame 0x23 rq) = .cancelGroup rq ∧ commandOf (requestFrame 0x28 rq) = .pointThrow rq ∧
    commandOf (requestFrame 0x30 rq) = .askDirection rq ∧ commandOf (requestFrame 0x31 rq) = .refuseOffer rq ∧
    commandOf (requestFrame 0x38 rq) = .linkReset rq ∧ commandOf (requestFrame 0x39 rq) = .clearCounters rq ∧
    commandOf (requestFrame 0x40 rq) = .ackFault rq ∧ commandOf (requestFrame 0x41 rq) = .prepareAux rq ∧
    commandOf (requestFrame 0x42 rq) = .confirmAux rq) ∧
  (∀ s : State, 16 ≤ s.host.replies.length →
    (∀ rq : Request, ∀ c ∈ [Instr.ping rq, .query rq, .configBegin rq, .elementDef rq, .routeDef rq, .linkDef rq, .groupDef rq,
      .globalParams rq, .configEnd rq, .fieldReport rq, .supplyReport rq, .setRoute rq, .commitGroup rq, .cancelGroup rq,
      .cancelRoute rq, .pointThrow rq, .ackFault rq, .prepareAux rq, .askDirection rq, .refuseOffer rq, .linkReset rq,
      .clearCounters rq, .confirmAux rq], exec c s = .next s) ∧
    (∀ (h : Header) (n : Nat), ∀ c ∈ [Instr.restoreSection h n, .emergencyRelease h n, .releaseGivenFlank h n, .resume h,
      .restart h], exec c s = .next s) ∧
    ∀ f : HostFrame, exec (.unknownKind f) s = .next s) ∧
  ∀ s : State,
    (∀ r rest, s.host.replies = r :: rest →
      exec .transmitLineFree s = .next { s with host := { s.host with line := some (.reply r), replies := rest } }) ∧
    (∀ sub rest, s.host.replies = [] → s.reports = sub :: rest →
      exec .transmitLineFree s = .next { s with
        host := { s.host with line := some (.report sub.reportKind (s.reportBody sub)) }
        reports := rest }) ∧
    (s.host.replies = [] → s.reports = [] →
      exec .transmitLineFree s = .next { s with host := { s.host with line := none } })

/-- R166 to R168: the end of a request's handling. Its reply comes after every reply made before it, its frame leaves the head of the queue
(that a head frame which is not the request's own is left is the model's choice, log 9), the line is busy, and beyond that the cascade of
the event leaves the host link, device time, the configuration and what the host reported of the field alone; with no change to be taken it
leaves every block alone. -/
def Obligations.ReplyIsMade : Prop :=
  ∀ (u : State) (f : HostFrame) (r : Reply),
    let t := u.replied f r
    t.outbox = u.outbox ++ [r] ∧ t.host.line ≠ none ∧
    (∀ rest, u.host.requests = f :: rest → t.host.requests = rest) ∧
    (u.host.requests.head? ≠ some f → t.host.requests = u.host.requests) ∧
    t.host.counters = u.host.counters ∧ t.host.preparation = u.host.preparation ∧
    t.time = u.time ∧ t.cfg = u.cfg ∧ t.pending = u.pending ∧
    t.field.points = u.field.points ∧ t.field.supplies = u.field.supplies ∧ t.field.outstanding = u.field.outstanding ∧
    (∀ e, (t.sect e).held = (u.sect e).held ∧ (t.sect e).latest = (u.sect e).latest) ∧
    (∀ g, (t.signal g).proving = (u.signal g).proving) ∧
    (t.su.mode = u.su.mode ∨ t.su.mode = .safeHold ∨ u.su.mode = .normal ∧ t.su.mode = .restricted) ∧
    (u.work = [] → t.field = u.field ∧ t.locking = u.locking ∧ t.claims = u.claims ∧ t.movement = u.movement ∧
      t.links = u.links ∧ t.boundaries = u.boundaries ∧ t.su = u.su ∧ t.work = [] ∧ t.choices = u.choices)

/-! ### Invariants of every step -/

/-- R157: whatever step is made, ENABLE_OUT stays high exactly in NORMAL and RESTRICTED. -/
def Obligations.EnableOutFollowsTheMode : Prop :=
  ∀ s t : State, s.enableAgrees → step s = .next t → t.enableAgrees

/-- R156: whatever step is made from a state whose fault list is whole (R151), a part in service stays in SAFE_HOLD while the cause of a
CRITICAL fault is present, the MAJOR count exceeds MAJOR_LIMIT, or the fault list has overflowed. -/
def Obligations.SafeHoldIsKept : Prop :=
  ∀ s t : State, s.faultListWhole → s.holdsSafe → step s = .next t → t.holdsSafe

/-- Whatever step is made: the request queue stays within 8 frames and the reply list within 24, with the line idle only when nothing waits
for it (R166 to R168); the report queue holds no subject twice (R169); every parameter in force stays in its range (R172, R175); the fault
list holds at most 32 records, under rising indices, and none of a kind and subject twice (R151). From a state whose configuration stands
as the checks of R2, R29 and R171 leave it: no boundary element ever has both offers, nor an outgoing one while it is neither EXIT nor
OUTBOUND (8.1, R131); a group's queue is its QUEUED points, each once, and no more of its points move than its limit (R88); every lock is
held by a slot in use whose route locks its element, and no two slots in use have one entry (R36, R37, R40); and then a signal shows
PROCEED only while its claim count is 0 and exactly one OPEN slot has it as entry (R56). -/
def Obligations.TablesStayWhole : Prop :=
  ∀ s t : State, step s = .next t →
    (s.hostBounded → s.lineServed → t.hostBounded ∧ t.lineServed) ∧ (s.reportsDistinct → t.reportsDistinct) ∧
    (s.paramsInRange → t.paramsInRange) ∧ (s.faultListWhole → t.faultListWhole) ∧
    (s.configured → (s.offersLawful → t.offersLawful) ∧ (s.movesLawful → t.movesLawful) ∧
      (s.locksLawful → t.locksLawful ∧ (s.permissionsLawful → t.permissionsLawful)))

/-- The state after reset meets every one of the invariants. The last three of them are kept whatever step is made, given the laws they
rest on: once an event is carried to its end, an OPEN slot has no reason to wait and a LOCKED one shows some (R55, R56, R58); the claim
count of an element is the number of the requirements HELD on it and of the claims given on it, all requiring one state (R64, R65, R79);
and a point's lock and claims require one position, to which alone it may have a throw order (R42, R66, R84). -/
def Obligations.ResetMeetsTheInvariants : Prop :=
  State.reset.enableAgrees ∧ State.reset.holdsSafe ∧ State.reset.hostBounded ∧ State.reset.lineServed ∧
  State.reset.reportsDistinct ∧ State.reset.paramsInRange ∧ State.reset.faultListWhole ∧
  State.reset.configured ∧ State.reset.recordsSound ∧ State.reset.offersLawful ∧ State.reset.movesLawful ∧ State.reset.locksLawful ∧
  State.reset.permissionsLawful ∧ State.reset.slotsSettled ∧ State.reset.claimsLawful ∧ State.reset.ordersLawful ∧
  ∀ s t : State, s.configured → s.locksLawful → step s = .next t →
    (s.slotsSettled → t.slotsSettled) ∧ (s.claimsLawful → t.claimsLawful ∧ (s.ordersLawful → t.ordersLawful))

/-- In service no command but a cold reset and GLOBAL_PARAMS changes the configuration, and GLOBAL_PARAMS changes its parameters alone; out
of service no other than the configuration requests does. Whatever a command does, the configuration keeps to its checks: its tables are in
order, every record passes its own (R1, R21 to R28, R118, R172) and the element table keeps its capacities (R1), in service every reference
is satisfied (R2, R29), and out of service the blocks hold nothing (R171). -/
def Obligations.ConfigurationStands : Prop :=
  ∀ (c : Instr) (s t : State), exec c s = .next t →
    (s.configured → t.configured) ∧ (s.recordsSound → t.recordsSound) ∧
    (s.su.mode.inService = true →
      t.cfg = s.cfg ∨ c = .coldReset ∨ ∃ rq, c = .globalParams rq ∧ t.cfg = { s.cfg with params := t.cfg.params }) ∧
    (t.cfg = s.cfg ∨ c = .coldReset ∨ ∃ rq, c = .configBegin rq ∨ c = .elementDef rq ∨ c = .routeDef rq ∨ c = .linkDef rq ∨
      c = .groupDef rq ∨ c = .globalParams rq ∨ c = .configEnd rq)

/-- 09, 9.4: SAFE_HOLD is left by a cold reset, a RESUME or a RESTART alone, and NORMAL is entered by a RESUME alone, the auxiliary ones
with AUXILIARY authority, as a command of their own or as a CONFIRM_AUX of their kind (RESUME 4, RESTART 5). -/
def Obligations.ModesAreEnteredByCommand : Prop :=
  ∀ (c : Instr) (s t : State), exec c s = .next t →
    (s.su.mode = .safeHold → t.su.mode ≠ .safeHold →
      c = .coldReset ∨ (∃ h, (c = .resume h ∨ c = .restart h) ∧ h.authority = .auxiliary) ∨
      ∃ rq, c = .confirmAux rq ∧ rq.authority = .auxiliary ∧ (rq.body.head? = some 4 ∨ rq.body.head? = some 5)) ∧
    (s.su.mode ≠ .normal → t.su.mode = .normal →
      (∃ h, c = .resume h ∧ h.authority = .auxiliary) ∨
      ∃ rq, c = .confirmAux rq ∧ rq.authority = .auxiliary ∧ rq.body.head? = some 4)

/-! ### Reset, frames and queries (10) -/

/-- R176: a cold reset leaves the reset state: UNCONFIGURED with ENABLE_OUT low at device time 0, no configuration, every queue and table
empty, every link DISABLED with nothing queued or leaving, no timer running and nothing given or retired, the receivers hunting. What the
lines had brought is lost with it (the model's choice, log 8); the queue of commands and the number of free choices made are the model's
own and are kept. -/
def Obligations.ColdResetEmptiesThePart : Prop :=
  ∀ s : State, ∃ t, exec .coldReset s = .next t ∧
    t.time = 0 ∧ t.su.mode = .unconfigured ∧ t.su.enableOut = false ∧ t.su.faults.entries = [] ∧ t.su.overflow = false ∧
    t.su.causes = [] ∧ t.su.silenceFirst = .stopped ∧ t.su.silenceSecond = .stopped ∧
    t.cfg.elements.entries = [] ∧ t.cfg.routes.entries = [] ∧ t.cfg.links.entries = [] ∧ t.cfg.groups.entries = [] ∧
    t.cfg.stored = [] ∧ t.cfg.params = ⟨8000, 3000, 20000, 200, 10, 120000, 1000, 5000, 10000, 3⟩ ∧
    t.host.requests = [] ∧ t.host.replies = [] ∧ t.host.line = none ∧ t.reports = [] ∧
    t.host.counters = ⟨0, 0, 0, 0, 0⟩ ∧ t.host.preparation = none ∧
    (∀ l, t.link l = { state := .disabled, counters := ⟨0, 0, 0, 0, 0, 0, 0⟩, txSeq := 0, sending := none, queue := [],
                       sendTimer := .stopped, lastSeq := none, outProbe := 0, generator := 0, expProbe := 0, checker := 0,
                       cleanRun := 0, goodRun := 0, badRun := 0, missWatch := .stopped, losTimer := .stopped, freshUp := false,
                       neighbourMode := none, given := [], retiredAsks := [], retiredOffers := [] }) ∧
    t.links.entries = [] ∧ t.work = [] ∧
    t.locking.slots.entries = [] ∧ t.locking.locks.entries = [] ∧ t.locking.permissions.entries = [] ∧ t.claims.entries = [] ∧
    t.movement.throws.entries = [] ∧ t.movement.groups.entries = [] ∧ t.boundaries.entries = [] ∧
    t.field.sections.entries = [] ∧ t.field.points.entries = [] ∧ t.field.signals.entries = [] ∧
    t.field.supplies.entries = [] ∧ t.field.outstanding = 0 ∧ t.inputs.host = ⟨.hunting, [], 0⟩ ∧ (∀ l, t.portInput l = ⟨.hunting, [], 0⟩) ∧
    t.pending = s.pending ∧ t.choices = s.choices

/-- R165, R166, R158: a good frame is counted and joins the queue, or with 8 held is refused with QUEUE_FULL while the reply list has room;
in service the silence timer starts again, the causes of host silence go, and every slot is to be evaluated. R165: a bad frame adds one to
its own counter, a byte error while hunting to the byte-error counter, and nothing else changes; bytes judged bad are a bad frame, and
bytes that do not open with the delimiter are discarded. -/
def Obligations.FramesAreTaken : Prop :=
  (∀ (s : State) (bytes : List Byte) (f : HostFrame), judgeFrame bytes = .good f →
    let h := { s.host with counters := { s.host.counters with good := bump s.host.counters.good } }
    let full := { h with counters := { h.counters with queueFull := bump h.counters.queueFull } }
    ∃ u, exec (.hostFrameReceived bytes) s = settled u ∧
      u.host = (if s.host.requests.length < 8 then { h with requests := s.host.requests ++ [f] }
        else if s.host.replies.length < 24 then { full with replies := s.host.replies ++ [⟨f.tag, .refused, 16, f.kind, []⟩] }
        else full) ∧
      (s.su.mode.inService = true →
        u.su.silenceFirst = .running (s.time.plus s.cfg.params.silence1) ∧
        u.su.silenceSecond = .running (s.time.plus s.cfg.params.silence2) ∧
        (∀ c, c ∈ u.su.causes ↔ c ∈ s.su.causes ∧ c ≠ (.hostSilent, .device) ∧ c ≠ (.hostSilentLong, .device)) ∧
        u.su.mode = s.su.mode ∧ u.su.enableOut = s.su.enableOut ∧ u.su.overflow = s.su.overflow ∧
        .conditions ∈ u.work) ∧
      (s.su.mode.inService = false → u.su = s.su ∧ u.reports = s.reports ∧ u.work = s.work) ∧
      u.time = s.time ∧ u.cfg = s.cfg ∧ u.field = s.field ∧ u.locking = s.locking ∧ u.claims = s.claims ∧
      u.movement = s.movement ∧ u.links = s.links ∧ u.boundaries = s.boundaries ∧ u.pending = s.pending) ∧
  ∀ s : State,
    let k := s.host.counters
    let counting (c : HostCounters) : Host.Outcome State Fault Refusal := .next { s with host := { s.host with counters := c } }
    exec (.badFrame .crc) s = counting { k with crc := bump k.crc } ∧
    exec (.badFrame .length) s = counting { k with length := bump k.length } ∧
    exec (.badFrame .byte) s = counting { k with byte := bump k.byte } ∧
    exec (.badFrame .hunting) s = counting { k with byte := bump k.byte } ∧
    (∀ bytes e, judgeFrame bytes = .bad e → exec (.hostFrameReceived bytes) s = exec (.badFrame e) s) ∧
    ∀ bytes, judgeFrame bytes = .noFrame → exec (.hostFrameReceived bytes) s = .next s

/-- R167: before it is handed on, a frame of unknown kind is refused with UNKNOWN_KIND, and one of known kind without a valid authority
with BAD_FIELD; either changes nothing. A request that comes in a mode which does not take it is refused with MODE and changes nothing: the
requests of a part in service in UNCONFIGURED and CONFIGURING, the definition records and CONFIG_END outside CONFIGURING, CONFIG_BEGIN
outside UNCONFIGURED, GLOBAL_PARAMS in UNCONFIGURED, and COMMIT_GROUP and ASK_DIRECTION in SAFE_HOLD as well. -/
def Obligations.RequestsAreRefused : Prop :=
  (∀ (s : State) (f : HostFrame), s.host.replies.length < 16 →
    ((∀ c, (f.kind.toNat, c) ∉ requestKinds) →
      exec (.unknownKind f) s = .next (s.replied f ⟨f.tag, .refused, 2, f.kind, []⟩)) ∧
    ((∃ c, (f.kind.toNat, c) ∈ requestKinds) → f.authority ≠ some 1 → f.authority ≠ some 2 →
      exec (.unknownKind f) s = .next (s.replied f ⟨f.tag, .refused, 5, f.kind, [0, 0, 0]⟩))) ∧
  ∀ (s : State) (rq : Request), s.host.replies.length < 16 →
    let refusedBy (c : Instr) (kind : Byte) := exec c s = handled kind rq s .refused 1 []
    (s.su.mode = .unconfigured ∨ s.su.mode = .configuring →
      refusedBy (.fieldReport rq) 0x10 ∧ refusedBy (.supplyReport rq) 0x11 ∧ refusedBy (.setRoute rq) 0x20 ∧
      refusedBy (.cancelRoute rq) 0x21 ∧ refusedBy (.commitGroup rq) 0x22 ∧ refusedBy (.cancelGroup rq) 0x23 ∧
      refusedBy (.askDirection rq) 0x30 ∧ refusedBy (.refuseOffer rq) 0x31 ∧ refusedBy (.linkReset rq) 0x38 ∧
      refusedBy (.clearCounters rq) 0x39 ∧ refusedBy (.ackFault rq) 0x40 ∧ refusedBy (.prepareAux rq) 0x41 ∧
      refusedBy (.confirmAux rq) 0x42) ∧
    (s.su.mode ≠ .configuring →
      refusedBy (.elementDef rq) 0x0A ∧ refusedBy (.routeDef rq) 0x0B ∧ refusedBy (.linkDef rq) 0x0C ∧
      refusedBy (.groupDef rq) 0x0D ∧ refusedBy (.configEnd rq) 0x09) ∧
    (s.su.mode ≠ .unconfigured → refusedBy (.configBegin rq) 0x08) ∧
    (s.su.mode = .unconfigured → refusedBy (.globalParams rq) 0x0E) ∧
    (s.su.mode = .safeHold → refusedBy (.commitGroup rq) 0x22 ∧ refusedBy (.askDirection rq) 0x30)

/-- R170: PING answers with the device time and the mode, whatever its body, and changes nothing. R170: a QUERY of an element, slot, link,
fault index, boundary element view or the device in its range is answered with what the subject's report would carry now; one of another
kind or id is refused with BAD_FIELD, one of an element that is not defined, or of a boundary element view that names no boundary element,
with NOT_FOUND; a body that is not three bytes with BAD_FIELD. R180: the report bodies, field by field, of every kind of subject, with the
codes of R178. The size of the counts and of MAJOR_LIMIT, for which R178 names no size, and the bytes of an absent candidate index, an
absent own limit and an undefined group's limit, are the model's choice (log 25). -/
def Obligations.PingAndQueryAnswer : Prop :=
  (∀ (s : State) (rq : Request), s.host.replies.length < 16 →
    exec (.ping rq) s = handled 0x01 rq s .done 0 (bytes4 s.time.toNat ++ bytes1 s.su.mode.code)) ∧
  (∀ (s : State) (rq : Request), s.host.replies.length < 16 →
    let answer (sub : Subject) := handled 0x02 rq s .done 0 (sub.reportKind :: s.reportBody sub)
    (∀ k a b : Byte, rq.body = [k, a, b] →
      let id := num2 a b
      (k = 1 → id ≤ 399 → s.su.mode.inService = true → (s.defn id).isSome = true → exec (.query rq) s = answer (.element id)) ∧
      (k = 2 → id ≤ 31 → exec (.query rq) s = answer (.slot id)) ∧
      (k = 3 → id ≤ 3 → exec (.query rq) s = answer (.link id)) ∧
      (k = 4 → id ≤ 31 → exec (.query rq) s = answer (.faultIndex id)) ∧
      (k = 5 → id ≤ 399 → s.su.mode.inService = true → s.isBoundary id = true → exec (.query rq) s = answer (.boundary id)) ∧
      (k = 6 → exec (.query rq) s = answer .device) ∧
      (k = 1 ∧ id ≤ 399 ∧ (s.su.mode.inService = false ∨ s.defn id = none) ∨
        k = 5 ∧ id ≤ 399 ∧ (s.su.mode.inService = false ∨ s.isBoundary id = false) →
          exec (.query rq) s = handled 0x02 rq s .refused 4 []) ∧
      (k = 0 ∨ 6 < k ∨ k = 1 ∧ 399 < id ∨ k = 2 ∧ 31 < id ∨ k = 3 ∧ 3 < id ∨ k = 4 ∧ 31 < id ∨ k = 5 ∧ 399 < id →
          exec (.query rq) s = handled 0x02 rq s .refused 5 [0, 0, 0])) ∧
    (rq.body.length ≠ 3 → exec (.query rq) s = handled 0x02 rq s .refused 5 [1, 0, 0])) ∧
  (let id1 (x : Option Nat) : Byte := loByte (x.getD 255)
  let id2 (x : Option Nat) : List Byte := bytes2 (x.getD 65535)
  let none5 : List Byte := [0, 0, 0, 0, 0]
  let stamp (x : Option Time) : List Byte := match x with
    | some v => 1 :: bytes4 v.toNat
    | none => none5
  let flags (a b c d : Bool) : Byte := BitVec.ofBoolListLE [a, b, c, d, false, false, false, false]
  ∀ s : State,
    let left (x : Timer) : List Byte := match x with
      | .running d => bytes4 (Time.remaining s.time d)
      | .stopped => [0xFF, 0xFF, 0xFF, 0xFF]
    let now := bytes4 s.time.toNat
    let locked (e : Nat) : List Byte := match s.lock e with
      | some l => [loByte l.holder, if l.kind = .path then 1 else 2, if l.firm = true then 2 else 1]
      | none => [0xFF, 0, 0]
    let claimed (e : Nat) : List Byte := match s.claim e with
      | some c => [loByte c.required.code, loByte c.count]
      | none => [0, 0]
    (∀ e n, s.defn e = some (.sect n) → let x := s.sect e
      s.reportBody (.element e) = now ++ bytes2 e ++ [1] ++ bytes2 n ++ [loByte x.held.code, loByte ((x.latest.map Occupation.code).getD 0)]
        ++ stamp x.occupiedAt ++ stamp x.clearedAt ++ [loByte x.mark.code] ++ locked e) ∧
    (∀ e within g p i own, s.defn e = some (.point within g p i own) → let w := s.throwOf e
      s.reportBody (.element e) = now ++ bytes2 e ++ [2] ++ bytes2 within ++ [loByte g, flags p i false false] ++ bytes2 (own.getD 0)
        ++ [loByte (s.detection e).code] ++ locked e ++ [loByte (((s.lockPosition e).map Position.code).getD 0)] ++ claimed e
        ++ [loByte w.state.code, loByte ((w.order.map (fun o => o.target.code)).getD 0),
          flags (w.order.any Order.demand) (w.state == .moving) false false]
        ++ (match w.timer with
          | .stopped => [0, 0xFF, 0xFF, 0xFF, 0xFF]
          | .running d => 1 :: bytes4 (Time.remaining s.time d)
          | .paused r => 2 :: bytes4 r) ++ [loByte (ThrowFault.code w.reason)]) ∧
    (∀ e i own, s.defn e = some (.signal i own) →
      s.reportBody (.element e) = now ++ bytes2 e ++ [3, flags false i false false] ++ bytes2 (own.getD 0)
        ++ [loByte (s.signal e).proving.code, loByte (s.permission e).code] ++ left (s.signal e).withdrawal ++ claimed e) ∧
    (∀ e l remote role adjacent, s.defn e = some (.boundary l remote role adjacent) → let b := s.boundary e
      s.reportBody (.element e) = now ++ bytes2 e ++ [4, loByte l] ++ bytes2 remote ++ [loByte role.code] ++ bytes2 adjacent ∧
      s.reportBody (.boundary e) = now ++ bytes2 e ++ [if role = .both then loByte b.direction.code else 0] ++ left b.dirTimer
        ++ (match b.outgoing with
          | some o => [if o.accepted = true then 2 else 1, loByte o.slot] ++ stamp o.sentAt ++ left o.answer
          | none => [0, 0xFF] ++ none5 ++ [0xFF, 0xFF, 0xFF, 0xFF])
        ++ (match b.incoming with
          | some o => [loByte o.reference, loByte o.cls]
          | none => [0xFF, 0])
        ++ [id1 b.entrySlot, id1 b.awaited, id1 b.releasedPending,
          flags (b.outgoing.any OutgoingOffer.deferred) (b.incoming.any IncomingOffer.accepted) b.occupiedBeyond false]) ∧
    (∀ i, let x := s.slot i
      let r := x.rel
      s.reportBody (.slot i) = now ++ [loByte i, loByte x.state.code] ++ id2 x.route ++ [id1 x.group,
          flags x.needs.group x.needs.acceptance x.needs.flank false,
          BitVec.ofBoolListLE [x.waiting.points, x.waiting.flank, x.waiting.signalFlankHeld, x.waiting.sections, x.waiting.boundary,
            x.waiting.link, x.waiting.mode, x.waiting.proving],
          flags x.hasBeenOpened r.clearedBehind r.speedClamped r.timeClamped]
        ++ stamp x.pendingSince ++ left x.pendingTimer ++ left x.provingTimer
        ++ [(match s.offerOf i with
            | some (_, o) => if o.accepted = true then 2 else 1
            | none => 0),
          loByte x.lastOutcome.codes.1, loByte x.lastOutcome.codes.2, loByte (x.neighbourReason.getD 0)]
        ++ stamp r.passedAt ++ [loByte r.released, loByte r.overlap.code] ++ left r.overlapTimer
        ++ [loByte (ApproachMethod.code r.method)]
        ++ (match r.measurement with
          | some m => bytes2 m.first ++ bytes2 m.second ++ bytes4 m.dt
          | none => [0xFF, 0xFF, 0xFF, 0xFF, 0, 0, 0, 0])
        ++ bytes2 (r.vUsed.getD 0) ++ bytes2 (r.releaseTime.getD 0) ++ left r.approachTimer ++ left r.emergencyTimer
        ++ [loByte x.requirements.length]
        ++ x.requirements.zipIdx.flatMap (fun q => [loByte q.1.state.code, id1 q.1.candidate,
            flags q.1.firm q.1.satisfied q.1.deferred false]
          ++ (match s.chosen i q.2 with
            | some (.remote ..) => bytes2 (i * 16 + q.2)
            | _ => [0xFF, 0xFF]) ++ left q.1.answer)) ∧
    (∀ l, let k := s.link l
      let p := s.linkParams l
      let c := k.counters
      s.reportBody (.link l) = now ++ [loByte l, loByte k.state.code] ++ bytes2 p.period ++ bytes2 p.los
        ++ [loByte p.inLock, loByte p.outLock] ++ bytes2 p.answer
        ++ [match s.cfg.links.find l with
            | some d => if d.senior = true then (1 : Byte) else 2
            | none => 0]
        ++ [c.good, c.crc, c.length, c.byte, c.gaps, c.mismatch, c.unknown].flatMap bytes2
        ++ [k.txSeq] ++ id2 (k.lastSeq.map BitVec.toNat) ++ [k.outProbe, k.expProbe, loByte k.cleanRun, loByte k.goodRun,
          loByte k.badRun, loByte k.queue.length, id1 k.neighbourMode] ++ bytes2 k.retiredAsks.length
        ++ [loByte k.retiredOffers.length, loByte k.given.length]
        ++ k.given.flatMap (fun g => bytes2 g.reference ++ bytes2 g.element ++
          [loByte g.required.code, flags g.given g.withdrawn false false])) ∧
    (s.reportBody .device = now ++ [loByte s.su.mode.code, flags s.su.enableOut s.su.overflow false false, loByte s.majorCount,
          loByte s.cfg.params.majorLimit] ++ bytes2 s.field.outstanding
        ++ (List.range 8).flatMap (fun g =>
          (match s.cfg.groups.find g with
            | some n => [loByte (s.supply g).code, loByte n]
            | none => [0xFF, 0]) ++ [loByte (s.movingCount g), loByte (s.powerGroup g).queue.length] ++ left (s.powerGroup g).lossTimer)
        ++ (match s.host.preparation with
          | some p => loByte p.kind.code :: (bytes2 p.subject ++ bytes4 (Time.remaining s.time p.deadline))
          | none => [0, 0xFF, 0xFF, 0xFF, 0xFF, 0xFF, 0xFF])
        ++ (let p := s.cfg.params
          [p.throwLimit, p.provingLimit, p.supplyLoss, p.pendingLimit, p.margin, p.staleness, p.silence1, p.silence2, p.auxWindow,
            p.majorLimit].flatMap bytes4)
        ++ (let c := s.host.counters
          [c.good, c.crc, c.length, c.byte, c.queueFull].flatMap bytes2)) ∧
    ∀ i, s.reportBody (.faultIndex i) = now ++ [loByte i] ++ (match s.su.faults.find i with
      | some r => [loByte r.state.code, loByte r.kind.code, loByte r.kind.cls.code, loByte r.subject.kindCode] ++ id2 r.subject.id
        ++ bytes4 r.raisedAt.toNat ++ bytes2 r.count
      | none => [0, 0, 0, 0, 0, 0, 0, 0, 0, 0, 0, 0])) ∧
  ([Occupation.unknown, .clear, .occupied, .disturbed].map Occupation.code = [0, 1, 2, 3] ∧
  [Detection.unknown, .normal, .reverse, .moving, .lost].map Detection.code = [0, 1, 2, 3, 4] ∧
  [Proving.unknown, .stopProven, .proceedProven, .notProven].map Proving.code = [0, 1, 2, 3] ∧
  [Permission.stop, .proceed].map Permission.code = [0, 1] ∧ [Supply.unknown, .on, .off].map Supply.code = [0, 1, 2] ∧
  [Role.exit, .entry, .both].map Role.code = [1, 2, 3] ∧ [RouteClass.main, .shunt, .entry].map RouteClass.code = [1, 2, 3] ∧
  [Direction.unknown, .outbound, .inbound, .asking].map Direction.code = [1, 2, 3, 4] ∧
  [Position.normal, .reverse].map Position.code = [1, 2] ∧ [Required.normal, .reverse, .stop].map Required.code = [1, 2, 3] ∧
  [SlotState.free, .pending, .locked, .opened, .passing, .approachLocked, .timedRelease, .awaitReleased].map SlotState.code =
    [0, 1, 2, 3, 4, 5, 6, 7] ∧
  [LastOutcome.none, .dropped .cancelled, .dropped .groupCancelled, .dropped .timeout, .dropped .refused, .dropped .offerTimeout,
    .dropped .flankUnavailable, .dropped .linkDown, .dropped .directionConflict, .released .cancelled, .released .passed,
    .released .approachExpired, .released .emergency].map LastOutcome.codes =
    [(0, 0), (1, 1), (1, 2), (1, 3), (1, 4), (1, 5), (1, 6), (1, 7), (1, 8), (2, 1), (2, 9), (2, 10), (2, 11)] ∧
  [ReqState.held, .asked, .lost, .released].map ReqState.code = [1, 2, 3, 4] ∧
  [ThrowState.atRest, .queued, .moving, .faulted].map ThrowState.code = [0, 1, 2, 3] ∧
  [none, some ThrowFault.throwTimeout, some .detectionLost, some .supplyTimeout].map ThrowFault.code = [0, 1, 2, 3] ∧
  [PassageMark.disarmed, .armed false, .armed true].map PassageMark.code = [0, 1, 2] ∧
  [OverlapState.none, .held, .timing, .released].map OverlapState.code = [0, 1, 2, 3] ∧
  [none, some ApproachMethod.computed, some .fixed].map ApproachMethod.code = [0, 1, 2] ∧
  [LinkState.disabled, .down, .proving, .up, .suspect].map LinkState.code = [0, 1, 2, 3, 4] ∧
  [Mode.unconfigured, .configuring, .startup, .restricted, .normal, .safeHold].map Mode.code = [0, 1, 2, 3, 4, 5] ∧
  [FaultClass.minor, .major, .critical].map FaultClass.code = [1, 2, 3] ∧
  [RecordState.active, .acked, .cleared].map RecordState.code = [1, 2, 3] ∧
  [FaultKind.pointThrowTimeout, .pointDetectionLost, .pointUncommandedMove, .supplyTimeout, .signalNotProven, .signalWrongSide,
    .unexpectedOccupancy, .unauthorisedPassing, .sectionDisturbed, .flankLost, .linkDown, .directionConflict, .hostSilent,
    .hostSilentLong].map FaultKind.code = [1, 2, 3, 4, 5, 6, 7, 8, 9, 10, 11, 12, 13, 14] ∧
  [Subject.element 0, .slot 0, .link 0, .faultIndex 0, .boundary 0, .device, .group 0].map Subject.kindCode = [1, 2, 3, 4, 5, 6, 7] ∧
  [AuxKind.restoreSection, .emergencyRelease, .releaseGivenFlank, .resume, .restart].map AuxKind.code = [1, 2, 3, 4, 5] ∧
  [Subject.element 0, .slot 0, .link 0, .boundary 0, .device, .faultIndex 0].map Subject.reportKind =
    [0x81, 0x82, 0x83, 0x84, 0x85, 0x86])

/-! ### Configuration (01, 02, 07, 10) -/

/-- R171: CONFIG_BEGIN in UNCONFIGURED enters CONFIGURING with everything empty and every parameter at its default, and marks the device.
R173: in CONFIGURING a CONFIG_END whose body is not six bytes draws BAD_FIELD and leaves the records. One whose count is not the number
held, whose checksum is not that of the stored bodies, that leaves a reference of an element or a route unsatisfied, or whose SILENCE_2 is
less than twice SILENCE_1 is refused, in this order, with the data of the first failure, and the whole configuration is discarded: every
link DISABLED, the mode UNCONFIGURED, the device subject marked. R2, R29: over an element table that names no id twice, the first failure
of an element is the first of the references that are not satisfied, element by element in table order, and that of a route likewise; the
codes of the field names are those of 11.5. -/
def Obligations.ConfigurationIsEmptied : Prop :=
  (∀ (s : State) (rq : Request), s.host.replies.length < 16 → s.su.mode = .unconfigured →
    ∃ u, exec (.configBegin rq) s = handled 0x08 rq u .done 0 [] ∧
      u.cfg.elements.entries = [] ∧ u.cfg.routes.entries = [] ∧ u.cfg.links.entries = [] ∧ u.cfg.groups.entries = [] ∧
      u.cfg.stored = [] ∧ u.cfg.params = ⟨8000, 3000, 20000, 200, 10, 120000, 1000, 5000, 10000, 3⟩ ∧
      (∀ l, (u.link l).state = .disabled) ∧ .device ∈ u.reports ∧
      u.su = { s.su with mode := .configuring, enableOut := false } ∧
      u.time = s.time ∧ u.field = s.field ∧ u.locking = s.locking ∧ u.claims = s.claims ∧ u.movement = s.movement ∧
      u.boundaries = s.boundaries ∧ u.host = s.host ∧ u.pending = s.pending) ∧
  (∀ s : State, s.cfg.elements.keys.Nodup →
    s.elementFailure = (s.cfg.elements.keys.flatMap (fun e => (s.elementFaults e).map (fun f => (e, f)))).head?) ∧
  (∀ s : State, s.cfg.routes.keys.Nodup →
    s.routeFailure = (s.cfg.routes.entries.flatMap (fun x => (s.routeFaults x.2).map (fun f => (x.1, f)))).head?) ∧
  [Field.noName, .length, .routeId, .cls, .entry, .exit, .path, .points, .overlap, .overlapSections, .overlapPoints, .overlapTime, .flank,
    .approach, .vmax, .deceleration, .reaction, .fixedTime, .elementId, .kind, .sectionLength, .containingSection, .powerGroup,
    .ownLimit, .link, .role, .remoteId, .adjacentSection, .period, .los, .inLock, .outLock, .answer, .senior, .group, .limit,
    .silence].map Field.code = List.range 18 ++ List.range' 20 10 ++ List.range' 31 6 ++ [40, 41, 61] ∧
  ∀ (s : State) (rq : Request), s.host.replies.length < 16 → s.su.mode = .configuring →
    (rq.body.length ≠ 6 → exec (.configEnd rq) s = handled 0x09 rq s .refused 5 [1, 0, 0]) ∧
    ∀ a b w x y z : Byte, rq.body = [a, b, w, x, y, z] →
      let sum := crc32 (s.cfg.stored.flatMap StoredRecord.body)
      let discarded (reason : Nat) (data : List Byte) : Prop :=
        ∃ u, exec (.configEnd rq) s = handled 0x09 rq u .refused reason data ∧
          u.cfg.elements.entries = [] ∧ u.cfg.routes.entries = [] ∧ u.cfg.links.entries = [] ∧ u.cfg.groups.entries = [] ∧
          u.cfg.stored = [] ∧ u.cfg.params = {} ∧ (∀ l, (u.link l).state = .disabled) ∧ .device ∈ u.reports ∧
          u.su = { s.su with mode := .unconfigured, enableOut := false } ∧
          u.time = s.time ∧ u.field = s.field ∧ u.locking = s.locking ∧ u.claims = s.claims ∧ u.movement = s.movement ∧
          u.boundaries = s.boundaries ∧ u.host = s.host ∧ u.pending = s.pending
      (num2 a b ≠ s.cfg.stored.length → discarded 17 (70 :: bytes2 s.cfg.stored.length)) ∧
      (num2 a b = s.cfg.stored.length →
        (num4 w x y z ≠ sum.toNat → discarded 17 (71 :: bytes4 sum.toNat)) ∧
        (num4 w x y z = sum.toNat →
          (∀ e f, s.elementFailure = some (e, f) →
            discarded 18 (bytes2 e ++ [loByte f.field.code, loByte f.entry, loByte f.candidate])) ∧
          (s.elementFailure = none → ∀ r f, s.routeFailure = some (r, f) →
            discarded 18 (bytes2 r ++ [loByte f.field.code, loByte f.entry, loByte f.candidate])) ∧
          (s.elementFailure = none → s.routeFailure = none → s.cfg.params.silence2 < 2 * s.cfg.params.silence1 →
            discarded 18 [0xFF, 0xFF, 61, 0, 0])))

/-- R1: an ELEMENT_DEF. Its checks are made in order and the first that fails names its field; capacities are counted after the record has
replaced what its id held. A record that passes is stored whole under its id, its body joins the stored-record list in place of an earlier
one of that id, and the reply is DONE. -/
def Obligations.ElementRecords : Prop :=
  ∀ (s : State) (rq : Request), s.host.replies.length < 16 →
    (s.su.mode ≠ .configuring → exec (.elementDef rq) s = handled 0x0A rq s .refused 1 []) ∧
    (s.su.mode = .configuring →
      let failing (field : Byte) := exec (.elementDef rq) s = handled 0x0A rq s .refused 5 [field, 0, 0]
      let storing (id : Nat) (d : ElementDef) := exec (.elementDef rq) s = handled 0x0A rq { s with cfg := { s.cfg with
        elements := s.cfg.elements.put id d
        stored := s.cfg.stored.filter (fun r => r.key != .element id) ++ [⟨.element id, rq.body⟩] } } .done 0 []
      let count (id : Nat) (d : ElementDef) (f : ElementDef → Bool) := countDefs (s.cfg.elements.put id d) f
      (rq.body.length < 3 → failing 1) ∧
      ∀ (a b k : Byte) (rest : List Byte), rq.body = a :: b :: k :: rest →
        let id := num2 a b
        (399 < id → failing 20) ∧
        (id ≤ 399 → k = 0 ∨ 4 < k → failing 21) ∧
        (id ≤ 399 → k = 1 ∧ rest.length ≠ 2 ∨ k = 2 ∧ rest.length ≠ 6 ∨ k = 3 ∧ rest.length ≠ 3 ∨ k = 4 ∧ rest.length ≠ 6 →
          failing 1) ∧
        (∀ x y : Byte, id ≤ 399 → k = 1 → rest = [x, y] →
          if 1 ≤ num2 x y ∧ num2 x y ≤ 4095 then storing id (.sect (num2 x y)) else failing 22) ∧
        (∀ x y g f c d : Byte, id ≤ 399 → k = 2 → rest = [x, y, g, f, c, d] →
          let own := num2 c d
          let d : ElementDef := .point (num2 x y) g.toNat (f.getLsbD 0) (f.getLsbD 1) (if own = 0 then none else some own)
          if 7 < g then failing 24
          else if f.getLsbD 1 = true ∧ (own < 1000 ∨ 30000 < own) ∨ f.getLsbD 1 = false ∧ own ≠ 0 then failing 25
          else if 128 < count id d (fun | .point .. => true | _ => false) then failing 21
          else storing id d) ∧
        (∀ f c d : Byte, id ≤ 399 → k = 3 → rest = [f, c, d] →
          let own := num2 c d
          let d : ElementDef := .signal (f.getLsbD 1) (if own = 0 then none else some own)
          if f.getLsbD 1 = true ∧ (own < 500 ∨ 10000 < own) ∨ f.getLsbD 1 = false ∧ own ≠ 0 then failing 25
          else if 96 < count id d (fun | .signal .. => true | _ => false) then failing 21
          else storing id d) ∧
        ∀ l x y r c d : Byte, id ≤ 399 → k = 4 → rest = [l, x, y, r, c, d] →
          if 3 < l then failing 26
          else if r = 0 ∨ 3 < r then failing 27
          else if 399 < num2 x y then failing 28
          else
            let d : ElementDef :=
              .boundary l.toNat (num2 x y) (if r = 1 then .exit else if r = 2 then .entry else .both) (num2 c d)
            if 8 < count id d (fun | .boundary m .. => m == l.toNat | _ => false) ∨
                32 < count id d (fun | .boundary .. => true | _ => false) then failing 21
            else storing id d)

/-- R21 to R28: what a ROUTE_DEF body stores passes every check on the record, and a definition that passes them is read back whole from
the body that R179 lays out for it, under every route id. A body that lays out fields which fit it draws the first of their failures, with
its field and indices, or else the definition they spell; a body shorter than 21 bytes or longer than 241, or one that lays out no such
fields, fails LENGTH. That an overlap present byte other than 1 is followed by no overlap fields (log 20), and the order of the checks
within one field (log 27), are the model's choices. -/
def Obligations.RouteRecordsAreSound : Prop :=
  (∀ (body : List Byte) (id : Nat) (d : RouteDef), readRouteDef body = .ok (id, d) → id ≤ 255 ∧ d.sound) ∧
  (∀ (id : Nat) (d : RouteDef), id ≤ 255 → d.sound → readRouteDef (routeBody id d) = .ok (id, d)) ∧
  (∀ r : RawRoute, r.fits → 21 ≤ r.bytes.length → r.bytes.length ≤ 241 →
    readRouteDef r.bytes = match r.failures.head? with
      | some f => .error f
      | none => .ok (r.id, r.definition)) ∧
  ∀ body : List Byte, body.length < 21 ∨ 241 < body.length ∨ (∀ r : RawRoute, r.fits → r.bytes ≠ body) →
    readRouteDef body = .error ⟨.length, 0, 0⟩

/-- R21, R171: in CONFIGURING a ROUTE_DEF that passes its checks replaces what its route id held, its body joins the stored-record list in
place of an earlier one of that id, and the reply is DONE with the route id; one that fails stores nothing and draws BAD_FIELD with the
route id as received, the failing field and the two indices; a body shorter than 21 bytes or longer than 241 fails LENGTH. That the route
id stands before the three bytes of R179, and is all ones for a body too short to hold one, is the model's choice (log 23). -/
def Obligations.RouteRecordsAreStored : Prop :=
  ∀ (s : State) (rq : Request), s.host.replies.length < 16 → s.su.mode = .configuring →
    (∀ id d, readRouteDef rq.body = .ok (id, d) →
      exec (.routeDef rq) s = handled 0x0B rq { s with cfg := { s.cfg with
        routes := s.cfg.routes.put id d
        stored := s.cfg.stored.filter (fun r => r.key != .route id) ++ [⟨.route id, rq.body⟩] } } .done 0 (bytes2 id)) ∧
    (∀ a b rest, rq.body = a :: b :: rest →
      (∀ f, readRouteDef rq.body = .error f →
        exec (.routeDef rq) s = handled 0x0B rq s .refused 5 [a, b, loByte f.field.code, loByte f.entry, loByte f.candidate]) ∧
      (rq.body.length < 21 ∨ 241 < rq.body.length → exec (.routeDef rq) s = handled 0x0B rq s .refused 5 [a, b, 1, 0, 0])) ∧
    (rq.body.length < 2 → exec (.routeDef rq) s = handled 0x0B rq s .refused 5 [0xFF, 0xFF, 1, 0, 0])

/-- R118: a LINK_DEF. A parameter given as 0 takes its default, the effective values are checked in order, and the first failing check
names its field. A record that passes replaces the link's, its body joins the stored-record list in place of an earlier one, and the reply
is DONE; a refused one stores nothing. In service no command but a cold reset, which empties the configuration, changes a link's
parameters. -/
def Obligations.LinkRecords : Prop :=
  (∀ (s : State) (rq : Request), s.host.replies.length < 16 →
    (s.su.mode ≠ .configuring → exec (.linkDef rq) s = handled 0x0C rq s .refused 1 []) ∧
    (s.su.mode = .configuring →
      let failing (field : Byte) := exec (.linkDef rq) s = handled 0x0C rq s .refused 5 [field, 0, 0]
      (rq.body.length ≠ 10 → failing 1) ∧
      ∀ l a b c d i o e f q : Byte, rq.body = [l, a, b, c, d, i, o, e, f, q] →
        let period := if num2 a b = 0 then 250 else num2 a b
        let los := if num2 c d = 0 then 1000 else num2 c d
        let inLock := if i = 0 then 8 else i.toNat
        let outLock := if o = 0 then 3 else o.toNat
        let answer := if num2 e f = 0 then 10000 else num2 e f
        if 3 < l then failing 26
        else if period < 100 ∨ 1000 < period then failing 31
        else if los < 2 * period ∨ 10000 < los then failing 32
        else if inLock < 3 ∨ 32 < inLock then failing 33
        else if outLock < 2 ∨ 16 < outLock then failing 34
        else if answer < 1000 ∨ 60000 < answer then failing 35
        else if q ≠ 1 ∧ q ≠ 2 then failing 36
        else exec (.linkDef rq) s = handled 0x0C rq { s with cfg := { s.cfg with
          links := s.cfg.links.put l.toNat ⟨period, los, inLock, outLock, answer, q == 1⟩
          stored := s.cfg.stored.filter (fun r => r.key != .link l.toNat) ++ [⟨.link l.toNat, rq.body⟩] } } .done 0 [])) ∧
  ∀ (c : Instr) (s t : State), exec c s = .next t → s.su.mode.inService = true → t.cfg.links = s.cfg.links ∨ c = .coldReset

/-- R172: in CONFIGURING a GROUP_DEF with a group id of 0 to 7 and a limit of 1 to 4 is stored and answered DONE; any other draws BAD_FIELD
naming GROUP, LIMIT or LENGTH and stores nothing. R172: in CONFIGURING a GLOBAL_PARAMS of 1 to 10 entries, each naming another parameter,
with every value in its parameter's range, is stored: its parameters take its values and the others their defaults. With an entry that
names no parameter or one already named, or whose value is outside its range, all entries before it being sound, it draws BAD_FIELD naming
the parameter (50 plus its code); with no entry, more than 10, or a body that is no whole number of entries, it draws BAD_FIELD naming
LENGTH; either stores nothing. That the entries are checked one after another, that a refusal names the code as received, and that the
reply shows an empty list of clamped parameters (R175, 11.2), is the model's choice (logs 26, 53). -/
def Obligations.GroupsAndParametersAreStored : Prop :=
  (∀ (s : State) (rq : Request), s.host.replies.length < 16 → s.su.mode = .configuring →
    let failing (field : Byte) := exec (.groupDef rq) s = handled 0x0D rq s .refused 5 [field, 0, 0]
    (rq.body.length ≠ 2 → failing 1) ∧
    ∀ g n : Byte, rq.body = [g, n] →
      if 7 < g then failing 40
      else if n = 0 ∨ 4 < n then failing 41
      else exec (.groupDef rq) s = handled 0x0D rq { s with cfg := { s.cfg with
        groups := s.cfg.groups.put g.toNat n.toNat
        stored := s.cfg.stored.filter (fun r => r.key != .group g.toNat) ++ [⟨.group g.toNat, rq.body⟩] } } .done 0 []) ∧
  (∀ (s : State) (rq : Request), s.host.replies.length < 16 → s.su.mode = .configuring →
    (rq.body = [] ∨ 50 < rq.body.length ∨ rq.body.length % 5 ≠ 0 → exec (.globalParams rq) s = handled 0x0E rq s .refused 5 [1, 0, 0]) ∧
    ∀ (before : List (Param × Nat)) (c w x y z : Byte) (after : List Byte), (before.map Prod.fst).Nodup →
      (∀ x ∈ before, x.1.least ≤ x.2 ∧ x.2 ≤ x.1.greatest) →
      rq.body = before.flatMap (fun x => loByte x.1.code :: bytes4 x.2) ++ [c, w, x, y, z] ++ after → rq.body.length ≤ 50 →
      rq.body.length % 5 = 0 → c = 0 ∨ 10 < c ∨ c ∈ before.map (fun x => loByte x.1.code) →
      exec (.globalParams rq) s = handled 0x0E rq s .refused 5 [50 + c, 0, 0]) ∧
  ∀ (s : State) (rq : Request) (l : List (Param × Nat)), s.host.replies.length < 16 → s.su.mode = .configuring →
    1 ≤ l.length → (l.map Prod.fst).Nodup → (∀ x ∈ l, x.2 < 4294967296) →
    rq.body = l.flatMap (fun x => loByte x.1.code :: bytes4 x.2) →
    ((∀ x ∈ l, x.1.least ≤ x.2 ∧ x.2 ≤ x.1.greatest) →
      ∃ u, exec (.globalParams rq) s = handled 0x0E rq u .done 0 [0, 0] ∧
        (∀ p v, (p, v) ∈ l → u.cfg.params.get p = v) ∧
        (∀ p, p ∉ l.map Prod.fst → u.cfg.params.get p = ({} : Params).get p) ∧
        u.cfg.stored = s.cfg.stored.filter (fun r => r.key != .params) ++ [⟨.params, rq.body⟩] ∧
        u = { s with cfg := { s.cfg with params := u.cfg.params, stored := u.cfg.stored } }) ∧
    (∀ before p v after, l = before ++ (p, v) :: after → (∀ x ∈ before, x.1.least ≤ x.2 ∧ x.2 ≤ x.1.greatest) →
      v < p.least ∨ p.greatest < v →
      exec (.globalParams rq) s = handled 0x0E rq s .refused 5 [loByte (50 + p.code), 0, 0])

/-- R175: in service a GLOBAL_PARAMS with ROUTINE authority is refused with AUTHORITY. With AUXILIARY authority one of 1 to 10 entries,
each naming another parameter, sets each to its value, brought to the nearer bound of its range; then SILENCE_2 is raised to twice
SILENCE_1 where it is smaller; the parameters so clamped are answered, the device subject is marked, and a MAJOR count above MAJOR_LIMIT
takes the part to SAFE_HOLD. With no entry, more than 10, or a body that is no whole number of entries, it draws BAD_FIELD naming LENGTH;
with an entry that names no parameter or one already named, BAD_FIELD with no field named (11.2; the model's choice, log 26); either
changes nothing. The order in which the clamped parameters are listed is the model's choice (log 66). -/
def Obligations.ParametersChangeInService : Prop :=
  ∀ (s : State) (rq : Request) (l : List (Param × Nat)), s.host.replies.length < 16 → s.su.mode.inService = true →
    (rq.authority = .routine → exec (.globalParams rq) s = handled 0x0E rq s .refused 14 []) ∧
    (rq.authority = .auxiliary →
      (rq.body = [] ∨ 50 < rq.body.length ∨ rq.body.length % 5 ≠ 0 →
        exec (.globalParams rq) s = handled 0x0E rq s .refused 5 [1, 0, 0]) ∧
      ∀ entries : List (Byte × Byte × Byte × Byte × Byte), 1 ≤ entries.length → entries.length ≤ 10 →
        rq.body = entries.flatMap (fun x => [x.1, x.2.1, x.2.2.1, x.2.2.2.1, x.2.2.2.2]) →
        (∃ x ∈ entries, x.1 = 0 ∨ 10 < x.1) ∨ ¬ (entries.map Prod.fst).Nodup →
        exec (.globalParams rq) s = handled 0x0E rq s .refused 5 [0, 0, 0]) ∧
    (rq.authority = .auxiliary → 1 ≤ l.length → (l.map Prod.fst).Nodup → (∀ x ∈ l, x.2 < 4294967296) →
      rq.body = l.flatMap (fun x => loByte x.1.code :: bytes4 x.2) →
      let named (p : Param) : Nat := match l.find? (fun x => x.1 == p) with
        | some x => max p.least (min p.greatest x.2)
        | none => s.cfg.params.get p
      let short : Bool := Nat.blt (named Param.silence2) (2 * named Param.silence1)
      let outside := (l.filter (fun x => decide (x.2 < x.1.least ∨ x.1.greatest < x.2))).map Prod.fst
      let clamped := if short = true ∧ .silence2 ∉ outside then outside ++ [.silence2] else outside
      ∃ u, exec (.globalParams rq) s = handled 0x0E rq u .done 0
          ((if clamped = [] then 0 else 1) :: loByte clamped.length :: clamped.map (fun p => loByte p.code)) ∧
        (∀ p, u.cfg.params.get p = if p = .silence2 ∧ short = true then 2 * named .silence1 else named p) ∧
        u.cfg = { s.cfg with params := u.cfg.params } ∧ .device ∈ u.reports ∧
        (u.cfg.params.majorLimit < s.majorCount → u.su.mode = .safeHold) ∧
        (s.majorCount ≤ u.cfg.params.majorLimit → u.su = s.su ∧ u.movement = s.movement ∧ u.work = s.work) ∧
        u.su.faults = s.su.faults ∧ u.su.causes = s.su.causes ∧ u.time = s.time ∧ u.field = s.field ∧ u.locking = s.locking ∧
        u.claims = s.claims ∧ u.links = s.links ∧ u.boundaries = s.boundaries ∧ u.host = s.host ∧ u.pending = s.pending)

/-- R174: a CONFIG_END that passes every check takes the configuration into service. Every block is in its restart state, every defined
link is in PROVING with PROBE 0 placed, the silence timer runs from the moment the request is handled (the model's choice, log 48), the
device and each defined link are marked, and the mode is STARTUP with ENABLE_OUT low, or RESTRICTED at once when nothing is outstanding.
That a telegram still on a line is kept, so that PROBE 0 waits behind it, is the model's choice (log 36). The premises name the reference
checks of R2 and R29, of which ConfigurationIsEmptied says what they find. -/
def Obligations.ConfigEndStartsThePart : Prop :=
  ∀ (s : State) (rq : Request) (a b w x y z : Byte), s.host.replies.length < 16 → s.su.mode = .configuring →
    rq.body = [a, b, w, x, y, z] → num2 a b = s.cfg.stored.length →
    num4 w x y z = (crc32 (s.cfg.stored.flatMap StoredRecord.body)).toNat → s.elementFailure = none → s.routeFailure = none →
    2 * s.cfg.params.silence1 ≤ s.cfg.params.silence2 →
    let outstanding := (s.cfg.elements.entries.filter (fun e => match e.2 with
      | .boundary .. => false
      | _ => true)).length + s.cfg.groups.entries.length
    ∃ u, exec (.configEnd rq) s = handled 0x09 rq u .done 0 [a, b] ∧
      u.su.mode = (if outstanding = 0 then .restricted else .startup) ∧ u.su.enableOut = decide (outstanding = 0) ∧
      u.su.faults.entries = [] ∧ u.su.overflow = false ∧ u.su.causes = [] ∧
      u.su.silenceFirst = .running (s.time.plus s.cfg.params.silence1) ∧
      u.su.silenceSecond = .running (s.time.plus s.cfg.params.silence2) ∧
      u.field.outstanding = outstanding ∧ u.field.sections.entries = [] ∧ u.field.points.entries = [] ∧
      u.field.signals.entries = [] ∧ u.field.supplies.entries = [] ∧
      (∀ i, (u.slot i).state = .free) ∧ (∀ e, u.lock e = none ∧ u.permission e = .stop ∧ u.claim e = none) ∧
      (∀ p, u.throwOf p = {}) ∧ (∀ g, u.powerGroup g = {}) ∧ (∀ e, u.boundary e = {}) ∧
      (∀ l, (s.cfg.links.find l).isSome = true →
        (u.link l).state = .proving ∧ (u.link l).counters = {} ∧ (u.link l).given = [] ∧ (u.link l).retiredAsks = [] ∧
        (u.link l).retiredOffers = [] ∧
        ((s.link l).sending = none →
          (u.link l).sending = some ((s.link l).txSeq, .probe 0 (probePattern probeLoad)) ∧
          (u.link l).txSeq = (s.link l).txSeq + 1 ∧ (u.link l).queue = []) ∧
        ((s.link l).sending ≠ none →
          (u.link l).sending = (s.link l).sending ∧ (u.link l).txSeq = (s.link l).txSeq ∧
          (u.link l).queue = [.probe 0 (probePattern probeLoad)]) ∧
        .link l ∈ u.reports) ∧
      (∀ l, s.cfg.links.find l = none → u.link l = {}) ∧ .device ∈ u.reports ∧
      u.cfg = { s.cfg with stored := [] } ∧ u.time = s.time ∧ u.host = s.host ∧ u.pending = s.pending

/-! ### The field image (01) -/

/-- R3, R4, R10, R12, R19: a FIELD_REPORT of one entry for a section. A value equal to the latest reported one changes nothing. Any other
becomes the latest reported value, and the held detection too unless that is DISTURBED; the stamps follow the change of the held detection,
the first entry lowers the outstanding count, a DISTURBED has its cause, and the rest of the field image stands. R5: a change of the held
detection to OCCUPIED or DISTURBED sets an armed passage mark, no other change alters one, and a disarmed mark is left alone; the RU may
then arm or disarm the mark of a section that is locked as path. -/
def Obligations.SectionReports : Prop :=
  ∀ (s : State) (rq : Request) (a b v : Byte) (n : Nat) (o : Occupation),
    s.host.replies.length < 16 → s.su.mode.inService = true → rq.body = [a, b, 1, v] → s.defn (num2 a b) = some (.sect n) →
    (v, o) ∈ [((1 : Byte), Occupation.clear), (2, .occupied), (3, .disturbed)] →
    let e := num2 a b
    let x := s.sect e
    let h := if x.held = .disturbed then .disturbed else o
    (x.latest = some o → exec (.fieldReport rq) s = handled 0x10 rq s.settle .done 0 [1, 0xFF]) ∧
    (x.latest ≠ some o →
      ∃ u : State, exec (.fieldReport rq) s = handled 0x10 rq u .done 0 [1, 0xFF] ∧
        (u.sect e).latest = some o ∧ (u.sect e).held = h ∧
        (u.sect e).occupiedAt =
          (if h = .disturbed then none else if x.held = .clear ∧ h = .occupied then some s.time else x.occupiedAt) ∧
        (u.sect e).clearedAt = (if h = .clear ∧ x.held ≠ .clear then some s.time else x.clearedAt) ∧
        (let sets : Prop := h ≠ x.held ∧ (h = .occupied ∨ h = .disturbed)
          let left : PassageMark := if x.mark ≠ .disarmed ∧ sets then .armed true else x.mark
          ((∀ l, s.lock e = some l → l.kind ≠ .path) → (u.sect e).mark = left) ∧
          (x.mark ≠ .disarmed → sets → (u.sect e).mark = .armed true) ∧
          (x.mark ≠ .disarmed → ¬ sets → (u.sect e).mark = x.mark ∨ (u.sect e).mark = .disarmed)) ∧
        (∀ d, d ≠ e → (u.sect d).latest = (s.sect d).latest ∧ (u.sect d).held = (s.sect d).held ∧
          (u.sect d).occupiedAt = (s.sect d).occupiedAt ∧ (u.sect d).clearedAt = (s.sect d).clearedAt) ∧
        u.field.outstanding = (if x.latest = none then s.field.outstanding - 1 else s.field.outstanding) ∧
        (x.latest = none → s.field.outstanding ≤ 1 → s.su.mode = .startup → u.su.mode = .restricted ∨ u.su.mode = .safeHold) ∧
        (o = .disturbed → (.sectionDisturbed, .element e) ∈ u.su.causes) ∧ .element e ∈ u.reports ∧
        u.field.points = s.field.points ∧ u.field.supplies = s.field.supplies ∧
        (∀ g, (u.signal g).proving = (s.signal g).proving) ∧
        u.time = s.time ∧ u.cfg = s.cfg ∧ u.host = s.host ∧ u.pending = s.pending)

/-- R6, R10, R17, R89, R96, R97: a FIELD_REPORT of one entry for a point. A value equal to its detection changes nothing. Any other becomes
its detection. A move away from rest by a point that is not MOVING is a fault; a MOVING or QUEUED point that reaches its target is at rest
with no order; a held point that is LOST is FAULTED, with the order it had or, at rest, one to the position it is held in; a FAULTED point that nothing
holds leaves FAULTED at rest; any other throw record stands. Only a report that takes the part to SAFE_HOLD ends a QUEUED point's order
(R95). Held means locked or claimed. -/
def Obligations.PointReports : Prop :=
  ∀ (s : State) (rq : Request) (a b v : Byte) (within group : Nat) (guarded individual : Bool) (own : Option Nat) (d : Detection),
    s.host.replies.length < 16 → s.su.mode.inService = true → rq.body = [a, b, 2, v] →
    s.defn (num2 a b) = some (.point within group guarded individual own) →
    (v, d) ∈ [((1 : Byte), Detection.normal), (2, .reverse), (3, .moving), (4, .lost)] →
    let p := num2 a b
    let w := s.throwOf p
    let rests (x : Detection) : Prop := x = .normal ∨ x = .reverse
    let reached : Prop := ∃ o, w.order = some o ∧ d = o.target.detection
    (∀ g, p ∈ (s.powerGroup g).queue → w.state = .queued) →
    (s.detection p = d → exec (.fieldReport rq) s = handled 0x10 rq s.settle .done 0 [1, 0xFF]) ∧
    (s.detection p ≠ d →
      ∃ u : State, exec (.fieldReport rq) s = handled 0x10 rq u.settle .done 0 [1, 0xFF] ∧
        u.detection p = d ∧ (∀ q, q ≠ p → u.detection q = s.detection q) ∧
        u.field.outstanding = (if s.detection p = .unknown then s.field.outstanding - 1 else s.field.outstanding) ∧
        (rests (s.detection p) → rests d ∨ d = .moving → w.state ≠ .moving →
          (s.su.mode = .normal → u.su.mode = .restricted ∨ u.su.mode = .safeHold) ∧
          ((.pointUncommandedMove, .element p) ∈ u.su.causes ↔
            d = .moving ∨ s.isHeld p = true ∧ s.requiredPosition p ≠ d.position)) ∧
        (w.state = .moving ∨ w.state = .queued → reached → (u.throwOf p).state = .atRest ∧ (u.throwOf p).order = none) ∧
        (d = .lost → s.isHeld p = true →
          (u.throwOf p).state = .faulted ∧ (u.throwOf p).reason = some .detectionLost ∧
          (.pointDetectionLost, .element p) ∈ u.su.causes ∧
          (w.state = .moving ∨ w.state = .faulted ∨ w.state = .queued ∧ u.su.mode ≠ .safeHold → (u.throwOf p).order = w.order) ∧
          (w.state = .atRest → (u.throwOf p).order = (s.requiredPosition p).map (fun pos => ⟨pos, true⟩))) ∧
        (w.state = .faulted → rests d → s.isHeld p = false →
          u.throwOf p = {} ∧ (.pointThrowTimeout, .element p) ∉ u.su.causes ∧ (.pointDetectionLost, .element p) ∉ u.su.causes) ∧
        (¬ (d = .lost ∧ s.isHeld p = true) → w.state = .atRest ∨ w.state = .moving ∧ ¬ reached ∨
          w.state = .queued ∧ ¬ reached ∧ u.su.mode ≠ .safeHold ∨
          w.state = .faulted ∧ ¬ (rests d ∧ s.isHeld p = false) → u.throwOf p = w) ∧
        .element p ∈ u.reports ∧ u.field.sections = s.field.sections ∧ u.field.signals = s.field.signals ∧
        u.field.supplies = s.field.supplies ∧ u.locking = s.locking ∧ u.claims = s.claims ∧ u.links = s.links ∧
        u.boundaries = s.boundaries ∧ u.time = s.time ∧ u.cfg = s.cfg ∧ u.host = s.host ∧ u.pending = s.pending)

/-- R7, R10, R15, R57: a FIELD_REPORT of one entry for a signal. A value equal to its proving changes nothing. Any other becomes its
proving: STOP_PROVEN ends its withdrawal supervision and the cause of SIGNAL_WRONG_SIDE; PROCEED_PROVEN with the permission at STOP and no
withdrawal supervised raises SIGNAL_WRONG_SIDE and takes the part to SAFE_HOLD, and stops the proving timers of the slots whose entry the
signal is. R16: withdrawal supervision. A permission that changes to STOP starts it with the signal's effective proving limit, one that
changes to PROCEED stops it; nothing else of the signal changes. At its expiry it stops, and a signal still PROCEED_PROVEN raises
SIGNAL_WRONG_SIDE, which takes the part to SAFE_HOLD. That an expiry which is not due changes nothing is the model's choice (log 14). -/
def Obligations.SignalsAreSupervised : Prop :=
  (∀ (s : State) (rq : Request) (a b v : Byte) (individual : Bool) (own : Option Nat) (q : Proving),
    s.host.replies.length < 16 → s.su.mode.inService = true → rq.body = [a, b, 3, v] →
    s.defn (num2 a b) = some (.signal individual own) →
    (v, q) ∈ [((1 : Byte), Proving.stopProven), (2, .proceedProven), (3, .notProven)] →
    let g := num2 a b
    let x := s.signal g
    (x.proving = q → exec (.fieldReport rq) s = handled 0x10 rq s.settle .done 0 [1, 0xFF]) ∧
    (x.proving ≠ q →
      ∃ u : State, exec (.fieldReport rq) s = handled 0x10 rq u.settle .done 0 [1, 0xFF] ∧
        u.signal g = ⟨q, if q = .stopProven then .stopped else x.withdrawal⟩ ∧ (∀ h, h ≠ g → u.signal h = s.signal h) ∧
        u.field.outstanding = (if x.proving = .unknown then s.field.outstanding - 1 else s.field.outstanding) ∧
        (q = .proceedProven → s.permission g = .stop → x.withdrawal = .stopped →
          (.signalWrongSide, .element g) ∈ u.su.causes ∧ u.su.mode = .safeHold) ∧
        (q = .stopProven → (.signalWrongSide, .element g) ∉ u.su.causes) ∧
        (x.proving = .stopProven → .unproved g ∈ u.work) ∧
        (∀ i, i < 32 → u.slot i = if q = .proceedProven ∧ s.entrySignal i = some g then { s.slot i with provingTimer := .stopped }
          else s.slot i) ∧
        .element g ∈ u.reports ∧ u.field.sections = s.field.sections ∧ u.field.points = s.field.points ∧
        u.field.supplies = s.field.supplies ∧ u.locking.locks = s.locking.locks ∧
        u.locking.permissions = s.locking.permissions ∧ u.claims = s.claims ∧ u.links = s.links ∧
        u.boundaries = s.boundaries ∧ u.time = s.time ∧ u.cfg = s.cfg ∧ u.host = s.host ∧ u.pending = s.pending)) ∧
  ∀ (s : State) (g : Nat),
    (s.permission g = .proceed → let u := s.setPermission g .stop
      u.permission g = .stop ∧ u.signal g = { s.signal g with withdrawal := .running (s.time.plus (s.provingLimit g)) }) ∧
    (s.permission g = .stop → let u := s.setPermission g .proceed
      u.permission g = .proceed ∧ u.signal g = { s.signal g with withdrawal := .stopped }) ∧
    (∀ d, (s.signal g).withdrawal = .running d → Time.reached s.time d = true →
      ∃ u : State, exec (.withdrawalSupervisionExpiry g) s = settled u ∧ u.signal g = { s.signal g with withdrawal := .stopped } ∧
        (∀ h, h ≠ g → u.signal h = s.signal h) ∧
        ((s.signal g).proving = .proceedProven → (.signalWrongSide, .element g) ∈ u.su.causes ∧ u.su.mode = .safeHold) ∧
        ((s.signal g).proving ≠ .proceedProven → u.su = s.su ∧ u.movement = s.movement) ∧
        u.field.sections = s.field.sections ∧ u.field.points = s.field.points ∧ u.field.supplies = s.field.supplies ∧
        u.field.outstanding = s.field.outstanding ∧ u.locking = s.locking ∧ u.claims = s.claims ∧ u.links = s.links ∧
        u.boundaries = s.boundaries ∧ u.time = s.time ∧ u.cfg = s.cfg ∧ u.host = s.host ∧ u.pending = s.pending) ∧
    (((s.signal g).withdrawal = .stopped ∨ ∃ d, (s.signal g).withdrawal = .running d ∧ Time.reached s.time d = false) →
      exec (.withdrawalSupervisionExpiry g) s = .next s)

/-- R8, R9, R11: FIELD_REPORT and SUPPLY_REPORT. A body that is no whole number of entries, or holds none or more than 32 (8), draws
BAD_FIELD. The reply to any other counts the entries that fit the tables, and names the first that does not; a report of which none fits
changes nothing. -/
def Obligations.ReportsAreCounted : Prop :=
  ∀ (s : State) (rq : Request), s.host.replies.length < 16 → s.su.mode.inService = true →
    let fits (x : Byte × Byte × Byte × Byte) : Bool := match s.defn (num2 x.1 x.2.1) with
      | some (.sect _) => x.2.2.1 == 1 && (x.2.2.2 == 1 || x.2.2.2 == 2 || x.2.2.2 == 3)
      | some (.point ..) => x.2.2.1 == 2 && (x.2.2.2 == 1 || x.2.2.2 == 2 || x.2.2.2 == 3 || x.2.2.2 == 4)
      | some (.signal ..) => x.2.2.1 == 3 && (x.2.2.2 == 1 || x.2.2.2 == 2 || x.2.2.2 == 3)
      | _ => false
    let known (x : Byte × Byte) : Bool := (s.cfg.groups.find x.1.toNat).isSome && (x.2 == 1 || x.2 == 2)
    (rq.body.length % 4 ≠ 0 ∨ rq.body = [] ∨ 128 < rq.body.length →
      exec (.fieldReport rq) s = handled 0x10 rq s .refused 5 [1, 0, 0]) ∧
    (rq.body.length % 2 ≠ 0 ∨ rq.body = [] ∨ 16 < rq.body.length →
      exec (.supplyReport rq) s = handled 0x11 rq s .refused 5 [1, 0, 0]) ∧
    (∀ l : List (Byte × Byte × Byte × Byte), rq.body = l.flatMap (fun x => [x.1, x.2.1, x.2.2.1, x.2.2.2]) →
      1 ≤ l.length → l.length ≤ 32 →
      (∃ u : State, exec (.fieldReport rq) s = handled 0x10 rq u .done 0
        [loByte (l.filter fits).length, loByte ((l.findIdx? (fun x => !fits x)).getD 255)]) ∧
      (l.filter fits = [] → exec (.fieldReport rq) s = handled 0x10 rq s .done 0 [0, 0])) ∧
    ∀ l : List (Byte × Byte), rq.body = l.flatMap (fun x => [x.1, x.2]) → 1 ≤ l.length → l.length ≤ 8 →
      (∃ u : State, exec (.supplyReport rq) s = handled 0x11 rq u .done 0
        [loByte (l.filter known).length, loByte ((l.findIdx? (fun x => !known x)).getD 255)]) ∧
      (l.filter known = [] → exec (.supplyReport rq) s = handled 0x11 rq s .done 0 [0, 0])

/-- R11, R91, R92: a SUPPLY_REPORT of one entry. A value equal to the group's supply changes nothing. From ON to OFF every running timer of
a MOVING point of the group is paused, and with a point moving the supply-loss timer starts; from UNKNOWN to OFF nothing moves or stops. At
ON the paused timers run again, the supply-loss timer stops, and points start from the head of the queue, as many as wait and the group's
limit leaves room for, each with its throw timer running for its effective limit. The premises of the last say what a queue holds (R88):
points of the group, QUEUED, each once. -/
def Obligations.SupplyReports : Prop :=
  ∀ (s : State) (rq : Request) (a v : Byte) (x : Supply), s.host.replies.length < 16 → s.su.mode.inService = true →
    rq.body = [a, v] → (v, x) ∈ [((1 : Byte), Supply.on), (2, .off)] → (s.cfg.groups.find a.toNat).isSome = true →
    let g := a.toNat
    let paused (p : Nat) : Throw := match (s.throwOf p).state, (s.throwOf p).timer with
      | .moving, .running d => { s.throwOf p with timer := .paused (Time.remaining s.time d) }
      | _, _ => s.throwOf p
    let resumed (p : Nat) : Throw := match (s.throwOf p).timer with
      | .paused r => { s.throwOf p with timer := .running (s.time.plus r) }
      | _ => s.throwOf p
    (s.supply g = x → exec (.supplyReport rq) s = handled 0x11 rq s.settle .done 0 [1, 0xFF]) ∧
    (s.supply g ≠ x →
      ∃ u : State, exec (.supplyReport rq) s = handled 0x11 rq u.settle .done 0 [1, 0xFF] ∧
        u.supply g = x ∧ (∀ h, h ≠ g → u.supply h = s.supply h) ∧ .device ∈ u.reports ∧
        u.field.outstanding = (if s.supply g = .unknown then s.field.outstanding - 1 else s.field.outstanding) ∧
        (x = .off → s.supply g = .on →
          (∀ p, u.throwOf p = if p ∈ s.pointsOf g then paused p else s.throwOf p) ∧
          u.powerGroup g = (if 0 < s.movingCount g then { s.powerGroup g with
            lossTimer := .running (s.time.plus s.cfg.params.supplyLoss) } else s.powerGroup g)) ∧
        (x = .off → s.supply g ≠ .on → u.movement = s.movement) ∧
        (x = .on → (u.powerGroup g).lossTimer = .stopped ∧
          let q := (s.powerGroup g).queue
          let starts (n : Nat) : Prop := (u.powerGroup g).queue = q.drop n ∧ (∀ p ∈ q.take n, (u.throwOf p).state = .moving) ∧
            ∀ p, p ∉ q.take n → u.throwOf p = if p ∈ s.pointsOf g then resumed p else s.throwOf p
          (∃ n, starts n) ∧
          (s.groupLimit g ≤ 4 → s.cfg.elements.keys.Nodup → q.Nodup →
            (∀ p ∈ q, p ∈ s.pointsOf g ∧ (s.throwOf p).state = .queued) →
            let n := min q.length (s.groupLimit g - s.movingCount g)
            starts n ∧ ∀ p ∈ q.take n, u.throwOf p =
              { s.throwOf p with state := .moving, timer := .running (s.time.plus (s.throwLimit p)) })) ∧
        (∀ h, h ≠ g → u.powerGroup h = s.powerGroup h) ∧
        (u.su = s.su ∨ s.su.mode = .startup ∧ u.su = { s.su with mode := .restricted, enableOut := true }) ∧
        u.field.sections = s.field.sections ∧ u.field.points = s.field.points ∧ u.field.signals = s.field.signals ∧
        u.locking = s.locking ∧ u.claims = s.claims ∧ u.links = s.links ∧ u.boundaries = s.boundaries ∧
        u.time = s.time ∧ u.cfg = s.cfg ∧ u.host = s.host ∧ u.pending = s.pending)

/-! ### Points and power groups (05) -/

/-- R86, R87: a POINT_THROW. Its checks are made in order, and a refusal changes nothing. One that passes first takes a FAULTED point out
of FAULTED; a point that lies in the position is then DONE, and any other gets an order to it, of origin DEMAND when it is locked or
claimed, and starts at once or joins the tail of its group's queue. That a point both locked and claimed is refused with the condition LOCK
is the model's choice (log 57). -/
def Obligations.PointThrows : Prop :=
  ∀ (s : State) (rq : Request), s.host.replies.length < 16 →
    let refusedBy (reason : Nat) (data : List Byte) : Prop := exec (.pointThrow rq) s = handled 0x28 rq s .refused reason data
    let taken : Prop := s.su.mode = .startup ∨ s.su.mode = .restricted ∨ s.su.mode = .normal
    (¬ taken → refusedBy 1 [loByte s.su.mode.code]) ∧
    (taken → rq.body.length ≠ 3 → refusedBy 5 [1, 0, 0]) ∧
    ∀ a b q : Byte, taken → rq.body = [a, b, q] →
      let p := num2 a b
      let w := s.throwOf p
      (399 < p ∨ q = 0 ∨ 2 < q → refusedBy 5 [0, 0, 0]) ∧
      (p ≤ 399 → q = 1 ∨ q = 2 → s.isPoint p = false → refusedBy 4 []) ∧
      ∀ (pos : Position) (within group : Nat) (guarded individual : Bool) (own : Option Nat), p ≤ 399 →
        (q, pos) ∈ [((1 : Byte), Position.normal), (2, .reverse)] → s.defn p = some (.point within group guarded individual own) →
        if guarded = true ∧ rq.authority = .routine then refusedBy 14 []
        else if w.state = .queued then refusedBy 6 [1]
        else if w.state = .moving then refusedBy 6 [2]
        else if s.isHeld p = true ∧ ¬ (w.state = .faulted ∧ s.requiredPosition p = some pos) then
          refusedBy 10 [if s.isLocked p = true then 1 else 2]
        else if (s.sect within).held ≠ .clear then refusedBy 10 [3]
        else
          ∃ u : State, (u.su.mode = s.su.mode ∧ (w.state ≠ .faulted → u.su = s.su) ∧
            (w.state = .faulted →
              (.pointThrowTimeout, .element p) ∉ u.su.causes ∧ (.pointDetectionLost, .element p) ∉ u.su.causes) ∧
            (∀ x, x ≠ p → x ∉ (s.powerGroup group).queue → u.throwOf x = s.throwOf x) ∧
            u.field = s.field ∧ u.locking = s.locking ∧ u.claims = s.claims ∧ u.links = s.links ∧ u.boundaries = s.boundaries ∧
            u.time = s.time ∧ u.cfg = s.cfg ∧ u.host = s.host ∧ u.pending = s.pending) ∧
            (s.detection p = pos.detection →
              exec (.pointThrow rq) s = handled 0x28 rq u .done 0 [] ∧ (w.state = .faulted → u.throwOf p = {}) ∧
              (w.state = .atRest → u = s)) ∧
            (s.detection p ≠ pos.detection →
              exec (.pointThrow rq) s = handled 0x28 rq u .accepted 0 [] ∧
              (u.throwOf p).order = some ⟨pos, s.isHeld p⟩ ∧
              (s.supply group = .on → s.movingCount group < s.groupLimit group → (s.powerGroup group).queue = [] →
                (u.throwOf p).state = .moving ∧ (u.throwOf p).timer = .running (s.time.plus (s.throwLimit p)) ∧
                (u.powerGroup group).queue = []) ∧
              (s.supply group ≠ .on ∨ s.groupLimit group ≤ s.movingCount group →
                (u.throwOf p).state = .queued ∧ (u.powerGroup group).queue = (s.powerGroup group).queue ++ [p]))

/-- R88: the arbiter. With the supply ON points start from the head of the queue until the group's limit is reached or the queue is empty;
each becomes MOVING with its throw timer running for its effective limit. With the supply not ON none starts. So the limit is kept. The
premises say what a queue holds: points of the group, QUEUED, each once. R90, R93: the throw timer of a MOVING point, when due, leaves it
FAULTED with THROW_TIMEOUT and its order held, and raises POINT_THROW_TIMEOUT; a supply-loss timer, when due, leaves every MOVING point of
its group FAULTED with SUPPLY_TIMEOUT and its order held, and raises SUPPLY_TIMEOUT for the group. Either takes NORMAL to RESTRICTED or to
SAFE_HOLD. That an expiry which is not due changes nothing is the model's choice (log 14). -/
def Obligations.PointsStartAndFail : Prop :=
  (∀ (s : State) (g : Nat), s.groupLimit g ≤ 4 → s.cfg.elements.keys.Nodup → (s.powerGroup g).queue.Nodup →
    (∀ p ∈ (s.powerGroup g).queue, p ∈ s.pointsOf g ∧ (s.throwOf p).state = .queued) →
    let q := (s.powerGroup g).queue
    let n := if s.supply g = .on then min q.length (s.groupLimit g - s.movingCount g) else 0
    let t := s.examineGroup g
    t.powerGroup g = { s.powerGroup g with queue := q.drop n } ∧ (∀ h, h ≠ g → t.powerGroup h = s.powerGroup h) ∧
    (∀ p, t.throwOf p = if p ∈ q.take n then
        { s.throwOf p with state := .moving, timer := .running (s.time.plus (s.throwLimit p)) }
      else s.throwOf p) ∧
    t.movingCount g = s.movingCount g + n ∧ (s.movingCount g ≤ s.groupLimit g → t.movingCount g ≤ s.groupLimit g) ∧
    t.field = s.field ∧ t.locking = s.locking ∧ t.claims = s.claims ∧ t.links = s.links ∧ t.boundaries = s.boundaries ∧
    t.su = s.su ∧ t.time = s.time ∧ t.cfg = s.cfg ∧ t.host = s.host) ∧
  (∀ (s : State) (p : Nat) (d : Time), (s.throwOf p).timer = .running d → Time.reached s.time d = true →
    (s.throwOf p).state = .moving → (∀ g, p ∉ (s.powerGroup g).queue) →
    ∃ u : State, exec (.throwTimerExpiry p) s = settled u ∧
      u.throwOf p = ⟨.faulted, (s.throwOf p).order, .stopped, some .throwTimeout⟩ ∧ .faulted p ∈ u.work ∧
      (.pointThrowTimeout, .element p) ∈ u.su.causes ∧ (s.su.mode = .normal → u.su.mode = .restricted ∨ u.su.mode = .safeHold) ∧
      (∀ x, x ≠ p → u.throwOf x = s.throwOf x ∨
        (∃ g, s.groupOf p = some g ∧ x ∈ (s.powerGroup g).queue) ∧ (u.throwOf x).state = .moving ∨
        u.su.mode = .safeHold ∧ (s.throwOf x).state = .queued ∧ (u.throwOf x).state = .atRest ∧ (u.throwOf x).order = none) ∧
      u.field = s.field ∧ u.locking = s.locking ∧ u.claims = s.claims ∧ u.links = s.links ∧ u.boundaries = s.boundaries ∧
      u.time = s.time ∧ u.cfg = s.cfg ∧ u.host = s.host ∧ u.pending = s.pending) ∧
  (∀ (s : State) (p : Nat), (s.throwOf p).state ≠ .moving ∨ (s.throwOf p).timer = .stopped ∨
      (∃ r, (s.throwOf p).timer = .paused r) ∨ (∃ d, (s.throwOf p).timer = .running d ∧ Time.reached s.time d = false) →
    exec (.throwTimerExpiry p) s = .next s) ∧
  (∀ (s : State) (g : Nat) (d : Time), (s.powerGroup g).lossTimer = .running d → Time.reached s.time d = true →
    ∃ u : State, exec (.supplyLossTimerExpiry g) s = settled u ∧ (u.powerGroup g).lossTimer = .stopped ∧
      (∀ p ∈ s.pointsOf g, (s.throwOf p).state = .moving →
        u.throwOf p = ⟨.faulted, (s.throwOf p).order, .stopped, some .supplyTimeout⟩ ∧ .faulted p ∈ u.work) ∧
      (.supplyTimeout, .group g) ∈ u.su.causes ∧ (s.su.mode = .normal → u.su.mode = .restricted ∨ u.su.mode = .safeHold) ∧
      (∀ p, ¬ (p ∈ s.pointsOf g ∧ (s.throwOf p).state = .moving) → u.throwOf p = s.throwOf p ∨
        u.su.mode = .safeHold ∧ (s.throwOf p).state = .queued ∧ (u.throwOf p).state = .atRest ∧ (u.throwOf p).order = none) ∧
      u.field = s.field ∧ u.locking = s.locking ∧ u.claims = s.claims ∧ u.links = s.links ∧ u.boundaries = s.boundaries ∧
      u.time = s.time ∧ u.cfg = s.cfg ∧ u.host = s.host ∧ u.pending = s.pending) ∧
  ∀ (s : State) (g : Nat), (s.powerGroup g).lossTimer = .stopped ∨
      (∃ d, (s.powerGroup g).lossTimer = .running d ∧ Time.reached s.time d = false) →
    exec (.supplyLossTimerExpiry g) s = .next s

/-! ### Faults, device modes and the auxiliary pair (09) -/

/-- R152, R155, R156: a raise. The cause is kept. The record of the kind and subject, if there is one, is ACTIVE again with its time and
count renewed; otherwise a new one is made at the lowest empty index; with the list full the overflow flag is set. The part goes to
SAFE_HOLD for a CRITICAL fault, a MAJOR count above MAJOR_LIMIT or an overflow, and from NORMAL to RESTRICTED for a MAJOR one. R153, R154:
the end of a fault record. When its cause goes, an ACTIVE record becomes CLEARED and an ACKED one leaves the list. In service an ACK_FAULT
makes an ACTIVE record ACKED and removes a CLEARED one; for an empty place or an ACKED record it draws NOT_FOUND, for an index above 31 or
a body that is not one byte BAD_FIELD, and changes nothing. -/
def Obligations.FaultsAreRecorded : Prop :=
  (∀ (s : State) (k : FaultKind) (sub : Subject),
    let t := s.raiseNow k sub
    let full : Prop := s.faultOf k sub = none ∧ ∀ i, i < 32 → (s.su.faults.find i).isSome = true
    (∀ c, c ∈ t.su.causes ↔ c ∈ s.su.causes ∨ c = (k, sub)) ∧
    (∀ i r, s.faultOf k sub = some (i, r) →
      t.su.faults = s.su.faults.put i ⟨r.kind, r.subject, s.time, bump r.count, .active⟩ ∧ t.su.overflow = s.su.overflow) ∧
    (∀ i, s.faultOf k sub = none → i < 32 → s.su.faults.find i = none → (∀ j, j < i → (s.su.faults.find j).isSome = true) →
      t.su.faults = s.su.faults.put i ⟨k, sub, s.time, 1, .active⟩ ∧ t.su.overflow = s.su.overflow) ∧
    (full → t.su.faults = s.su.faults ∧ t.su.overflow = true) ∧
    (k.cls = .critical ∨ s.cfg.params.majorLimit < t.majorCount ∨ full → t.su.mode = .safeHold) ∧
    (¬ (k.cls = .critical ∨ s.cfg.params.majorLimit < t.majorCount ∨ full) →
      t.su.mode = (if k.cls = .major ∧ s.su.mode = .normal then .restricted else s.su.mode) ∧ t.movement = s.movement) ∧
    (t.su.mode ≠ s.su.mode → t.su.enableOut = t.su.mode.enabled ∧ .device ∈ t.reports ∧ .conditions ∈ t.work) ∧
    t.su.silenceFirst = s.su.silenceFirst ∧ t.su.silenceSecond = s.su.silenceSecond ∧
    t.field = s.field ∧ t.locking = s.locking ∧ t.claims = s.claims ∧ t.links = s.links ∧ t.boundaries = s.boundaries ∧
    t.time = s.time ∧ t.cfg = s.cfg ∧ t.host = s.host) ∧
  (∀ (s : State) (k : FaultKind) (sub : Subject), ((k, sub) ∉ s.su.causes → s.causeGone k sub = s) ∧
    ((k, sub) ∈ s.su.causes →
      let t := s.causeGone k sub
      t.su = { s.su with causes := s.su.causes.filter (fun c => c != (k, sub)), faults := t.su.faults } ∧
      (s.faultOf k sub = none → t.su.faults = s.su.faults) ∧
      (∀ i r, s.faultOf k sub = some (i, r) →
        t.su.faults = (match r.state with
          | .active => s.su.faults.put i { r with state := .cleared }
          | .acked => s.su.faults.drop i
          | .cleared => s.su.faults)) ∧
      t.field = s.field ∧ t.locking = s.locking ∧ t.claims = s.claims ∧ t.movement = s.movement ∧ t.links = s.links ∧
      t.boundaries = s.boundaries ∧ t.time = s.time ∧ t.cfg = s.cfg ∧ t.host = s.host)) ∧
  ∀ (s : State) (rq : Request), s.host.replies.length < 16 → s.su.mode.inService = true →
    let refusedBy (reason : Nat) (data : List Byte) : Prop := exec (.ackFault rq) s = handled 0x40 rq s .refused reason data
    let acknowledged (i : Nat) (faults : Table FaultRecord) : Prop :=
      ∃ u : State, exec (.ackFault rq) s = handled 0x40 rq u .done 0 [] ∧ .faultIndex i ∈ u.reports ∧
        u = { s with su := { s.su with faults := faults }, reports := u.reports }
    (rq.body.length ≠ 1 → refusedBy 5 [1, 0, 0]) ∧
    ∀ a : Byte, rq.body = [a] →
      if 31 < a then refusedBy 5 [0, 0, 0]
      else match s.su.faults.find a.toNat with
        | none => refusedBy 4 []
        | some r => match r.state with
          | .acked => refusedBy 4 []
          | .active => acknowledged a.toNat (s.su.faults.put a.toNat { r with state := .acked })
          | .cleared => acknowledged a.toNat (s.su.faults.drop a.toNat)

/-- R158: the silence timer. When its first deadline is reached HOST_SILENT is raised, which takes NORMAL to RESTRICTED or SAFE_HOLD, and
the slots are to be evaluated; when its second is, HOST_SILENT_LONG is raised, which takes the part to SAFE_HOLD with ENABLE_OUT low. That
a deadline command which is not reached changes nothing is the model's choice (log 14). R157, R95: a change of mode. ENABLE_OUT follows it
in the same event, the device is marked, the slots are to be evaluated; at the entry to SAFE_HOLD every QUEUED point is at rest with no
order and the queues of the groups are empty. -/
def Obligations.ModeFollowsTheHost : Prop :=
  (∀ s : State,
    (∀ d, s.su.silenceFirst = .running d → Time.reached s.time d = true →
      ∃ u : State, exec .hostSilent s = settled u ∧ u.su.silenceFirst = .stopped ∧ u.su.silenceSecond = s.su.silenceSecond ∧
        (.hostSilent, .device) ∈ u.su.causes ∧ .conditions ∈ u.work ∧
        (s.su.mode = .normal → u.su.mode = .restricted ∨ u.su.mode = .safeHold) ∧
        u.field = s.field ∧ u.locking = s.locking ∧ u.claims = s.claims ∧ u.links = s.links ∧ u.boundaries = s.boundaries ∧
        u.time = s.time ∧ u.cfg = s.cfg ∧ u.host = s.host ∧ u.pending = s.pending) ∧
    (∀ d, s.su.silenceSecond = .running d → Time.reached s.time d = true →
      ∃ u : State, exec .hostSilentLong s = settled u ∧ u.su.silenceSecond = .stopped ∧ u.su.silenceFirst = s.su.silenceFirst ∧
        (.hostSilentLong, .device) ∈ u.su.causes ∧ u.su.mode = .safeHold ∧ (s.enableAgrees → u.su.enableOut = false) ∧
        u.field = s.field ∧ u.locking = s.locking ∧ u.claims = s.claims ∧ u.links = s.links ∧ u.boundaries = s.boundaries ∧
        u.time = s.time ∧ u.cfg = s.cfg ∧ u.host = s.host ∧ u.pending = s.pending) ∧
    (s.su.silenceFirst = .stopped ∨ (∃ d, s.su.silenceFirst = .running d ∧ Time.reached s.time d = false) →
      exec .hostSilent s = .next s) ∧
    (s.su.silenceSecond = .stopped ∨ (∃ d, s.su.silenceSecond = .running d ∧ Time.reached s.time d = false) →
      exec .hostSilentLong s = .next s)) ∧
  ∀ (s : State) (m : Mode), (s.su.mode = m → s.setMode m = s) ∧
    (s.su.mode ≠ m →
      let t := s.setMode m
      t.su = { s.su with mode := m, enableOut := m.enabled } ∧ .device ∈ t.reports ∧ .conditions ∈ t.work ∧
      (m ≠ .safeHold → t.movement = s.movement) ∧
      (m = .safeHold →
        (∀ p ∈ s.points, t.throwOf p = if (s.throwOf p).state = .queued then { s.throwOf p with state := .atRest, order := none }
          else s.throwOf p) ∧
        ∀ g, g < 8 → t.powerGroup g = { s.powerGroup g with queue := [] }) ∧
      t.field = s.field ∧ t.locking = s.locking ∧ t.claims = s.claims ∧ t.links = s.links ∧ t.boundaries = s.boundaries ∧
      t.time = s.time ∧ t.cfg = s.cfg ∧ t.host = s.host)

/-- R159 to R161: the auxiliary pair in service. A PREPARE_AUX is refused with AUTHORITY when it is ROUTINE and with BAD_FIELD for a kind
or a subject out of range, and otherwise replaces the preparation, with its window, and answers the deadline. A CONFIRM_AUX that is ROUTINE
is refused with AUTHORITY; one that matches no preparation is refused with NO_PREPARE and empties the preparation; one that matches
executes what was prepared. The window's end empties the preparation. That each auxiliary command of the table is a CONFIRM_AUX of its kind
is the model's choice (log 15), and so are it that a window which is not over changes nothing (log 14) and the one byte in which the number
of given claims released is sent (log 25). -/
def Obligations.AuxiliaryPair : Prop :=
  ∀ s : State,
    let emptied : State := s.putPreparation none
    (∀ rq : Request, s.host.replies.length < 16 → s.su.mode.inService = true →
      (rq.body.length ≠ 3 → exec (.prepareAux rq) s = handled 0x41 rq s .refused 5 [1, 0, 0] ∧
        exec (.confirmAux rq) s = handled 0x42 rq s .refused 5 [1, 0, 0]) ∧
      ∀ k a b : Byte, rq.body = [k, a, b] →
        let n := num2 a b
        let deadline := s.time.plus s.cfg.params.auxWindow
        (rq.authority = .routine → exec (.prepareAux rq) s = handled 0x41 rq s .refused 14 [] ∧
          exec (.confirmAux rq) s = handled 0x42 rq s .refused 14 []) ∧
        (rq.authority = .auxiliary →
          (k = 0 ∨ 5 < k ∨ k = 1 ∧ 399 < n ∨ k = 2 ∧ 31 < n ∨ k = 3 ∧ 3 < n ∨ (k = 4 ∨ k = 5) ∧ n ≠ 0 →
            exec (.prepareAux rq) s = handled 0x41 rq s .refused 5 [0, 0, 0]) ∧
          (∀ kind : AuxKind, k = loByte kind.code → kind.subjectOk n = true →
            ∃ u : State, exec (.prepareAux rq) s = handled 0x41 rq u .done 0 (bytes4 deadline.toNat) ∧
              u = { s with host := { s.host with preparation := some ⟨kind, n, deadline⟩ }, reports := u.reports } ∧
              (s.host.preparation ≠ some ⟨kind, n, deadline⟩ → .device ∈ u.reports)) ∧
          ((∀ p, s.host.preparation = some p → k ≠ loByte p.kind.code ∨ n ≠ p.subject) →
            exec (.confirmAux rq) s = handled 0x42 rq emptied .refused 15 []) ∧
          ∀ kind d, k = loByte kind.code → s.host.preparation = some ⟨kind, n, d⟩ →
            let executes (data : List Byte) (result : State → Prop) : Prop :=
              ∃ u : State, exec (.confirmAux rq) s = handled 0x42 rq u .done 0 data ∧ result u ∧ u.host.preparation = none
            (kind = .restoreSection → s.isSection n = true → (s.sect n).held = .disturbed → (s.sect n).latest = some .clear →
              executes [] (fun u => (u.sect n).held = .clear)) ∧
            (kind = .emergencyRelease → n ≤ 31 → (s.slot n).state ≠ .free →
              executes [] (fun u => (u.slot n).state = .timedRelease)) ∧
            (kind = .releaseGivenFlank → (s.cfg.links.find n).isSome = true → ¬ s.passesOn n →
              executes [loByte (s.link n).given.length] (fun u => (u.link n).given = [])) ∧
            (kind = .resume → s.su.mode = .restricted → (∀ c x, (c, x) ∈ s.su.causes → c.cls = .minor) →
              executes [4] (fun u => u.su.mode = .normal)) ∧
            (kind = .restart → executes [] (fun u => u.su.mode = .startup ∨ u.su.mode = .restricted)))) ∧
    (emptied = { s with host := { s.host with preparation := none }, reports := emptied.reports }) ∧
    (s.host.preparation ≠ none → .device ∈ emptied.reports) ∧
    (∀ p, s.host.preparation = some p → Time.reached s.time p.deadline = true → exec .auxWindowExpiry s = settled emptied) ∧
    ((∀ p, s.host.preparation = some p → Time.reached s.time p.deadline = false) → exec .auxWindowExpiry s = .next s) ∧
    ∀ (h : Header) (n : Nat), n < 65536 →
      exec (.restoreSection h n) s = exec (.confirmAux ⟨h.tag, h.authority, 1 :: bytes2 n⟩) s ∧
      exec (.emergencyRelease h n) s = exec (.confirmAux ⟨h.tag, h.authority, 2 :: bytes2 n⟩) s ∧
      exec (.releaseGivenFlank h n) s = exec (.confirmAux ⟨h.tag, h.authority, 3 :: bytes2 n⟩) s ∧
      exec (.resume h) s = exec (.confirmAux ⟨h.tag, h.authority, [4, 0, 0]⟩) s ∧
      exec (.restart h) s = exec (.confirmAux ⟨h.tag, h.authority, [5, 0, 0]⟩) s

/-- R13: a RESTORE_SECTION that was prepared. For an element that is no section it draws NOT_FOUND, for a section that is not DISTURBED or
was not last reported CLEAR BAD_STATE; otherwise the held detection becomes CLEAR, cleared_at is stamped, and the cause of
SECTION_DISTURBED goes. The preparation is consumed in each case. R82, R162: a RELEASE_GIVEN_FLANK that was prepared. For a link that is
not defined it draws NOT_FOUND, for one UP or SUSPECT BAD_STATE. For a defined link that is DOWN every given claim of the link is released,
the counts of their elements fall with them, and the reply carries how many there were (in one byte, the model's choice, log 25). R114, R115: an EMERGENCY_RELEASE that was prepared.
A slot id above 31 draws BAD_FIELD, a FREE slot NOT_FOUND, one in TIMED_RELEASE DONE with no change. Any other enters TIMED_RELEASE: its
permission is withdrawn if it was OPEN, its other timers stop, its needs and waiting reasons are emptied, its remote and LOST requirements
are RELEASED, its offer is withdrawn, and its emergency timer runs for 300,000 ms; its locks and its HELD local claims stay. -/
def Obligations.AuxiliaryReleases : Prop :=
  (∀ (s : State) (h : Header) (e : Nat) (d : Time), s.host.replies.length < 16 → s.su.mode.inService = true →
    h.authority = .auxiliary → s.host.preparation = some ⟨.restoreSection, e, d⟩ →
    let emptied : State := s.putPreparation none
    (s.isSection e = false → exec (.restoreSection h e) s = confirmed h .restoreSection e emptied .refused 4 []) ∧
    (s.isSection e = true → ¬ ((s.sect e).held = .disturbed ∧ (s.sect e).latest = some .clear) →
      exec (.restoreSection h e) s = confirmed h .restoreSection e emptied .refused 6 []) ∧
    (s.isSection e = true → (s.sect e).held = .disturbed → (s.sect e).latest = some .clear →
      ∃ u : State, exec (.restoreSection h e) s = confirmed h .restoreSection e u .done 0 [] ∧
        (u.sect e).held = .clear ∧ (u.sect e).latest = some .clear ∧ (u.sect e).occupiedAt = (s.sect e).occupiedAt ∧
        (u.sect e).clearedAt = some s.time ∧ (.sectionDisturbed, .element e) ∉ u.su.causes ∧ .sect e ∈ u.work ∧
        .element e ∈ u.reports ∧
        (∀ x, x ≠ e → (u.sect x).held = (s.sect x).held ∧ (u.sect x).latest = (s.sect x).latest ∧
          (u.sect x).occupiedAt = (s.sect x).occupiedAt ∧ (u.sect x).clearedAt = (s.sect x).clearedAt) ∧
        u.field.points = s.field.points ∧ u.field.supplies = s.field.supplies ∧ u.field.outstanding = s.field.outstanding ∧
        u.time = s.time ∧ u.cfg = s.cfg ∧ u.host = { s.host with preparation := none } ∧ u.pending = s.pending)) ∧
  (∀ (s : State) (h : Header) (l : Nat) (d : Time), s.host.replies.length < 16 → s.su.mode.inService = true →
    h.authority = .auxiliary → s.host.preparation = some ⟨.releaseGivenFlank, l, d⟩ →
    let emptied : State := s.putPreparation none
    let given := (s.link l).given
    (s.cfg.links.find l = none → exec (.releaseGivenFlank h l) s = confirmed h .releaseGivenFlank l emptied .refused 4 []) ∧
    ((s.cfg.links.find l).isSome = true → (s.link l).state = .up ∨ (s.link l).state = .suspect →
      exec (.releaseGivenFlank h l) s = confirmed h .releaseGivenFlank l emptied .refused 6 []) ∧
    ((s.cfg.links.find l).isSome = true → (s.link l).state ≠ .up → (s.link l).state ≠ .suspect →
      (given.map GivenClaim.reference).Nodup →
      ∃ u : State, exec (.releaseGivenFlank h l) s = confirmed h .releaseGivenFlank l u .done 0 [loByte given.length] ∧
        u.link l = { s.link l with given := [] } ∧ (∀ m, m ≠ l → u.link m = s.link m) ∧
        (∀ e, u.claimCount e = s.claimCount e - (given.filter (fun c => c.element == e)).length) ∧
        (∀ e, e ∉ given.map GivenClaim.element → u.claim e = s.claim e) ∧
        u.locking = s.locking ∧ u.field = s.field ∧ u.boundaries = s.boundaries ∧ u.su.mode = s.su.mode ∧
        u.time = s.time ∧ u.cfg = s.cfg ∧ u.host = { s.host with preparation := none } ∧ u.pending = s.pending)) ∧
  ∀ (s : State) (h : Header) (i : Nat) (d : Time), s.host.replies.length < 16 → s.su.mode.inService = true →
    h.authority = .auxiliary → s.host.preparation = some ⟨.emergencyRelease, i, d⟩ →
    let emptied : State := s.putPreparation none
    (31 < i → exec (.emergencyRelease h i) s = confirmed h .emergencyRelease i emptied .refused 5 [0, 0, 0]) ∧
    (i ≤ 31 → (s.slot i).state = .free → exec (.emergencyRelease h i) s = confirmed h .emergencyRelease i emptied .refused 4 []) ∧
    (i ≤ 31 → (s.slot i).state = .timedRelease →
      exec (.emergencyRelease h i) s = confirmed h .emergencyRelease i emptied .done 0 []) ∧
    (i ≤ 31 → (s.slot i).state ≠ .free → (s.slot i).state ≠ .timedRelease →
      ∃ u : State, exec (.emergencyRelease h i) s = confirmed h .emergencyRelease i u .done 0 [] ∧
        (u.slot i).state = .timedRelease ∧ (u.slot i).needs = {} ∧ (u.slot i).waiting = {} ∧
        (u.slot i).pendingTimer = .stopped ∧ (u.slot i).provingTimer = .stopped ∧
        (u.slot i).rel.approachTimer = .stopped ∧ (u.slot i).rel.overlapTimer = .stopped ∧
        (u.slot i).rel.emergencyTimer = .running (s.time.plus 300000) ∧
        (u.slot i).rel.released = (s.slot i).rel.released ∧ (u.slot i).rel.overlap = (s.slot i).rel.overlap ∧
        (u.slot i).route = (s.slot i).route ∧ (u.slot i).group = (s.slot i).group ∧
        (u.slot i).hasBeenOpened = (s.slot i).hasBeenOpened ∧
        (∀ j q, s.requirement i j = some q →
          u.requirement i j = some (if q.state = .lost ∨ s.askLink i j ≠ none then { state := .released } else q)) ∧
        (∀ g, (s.slot i).state = .opened → s.entrySignal i = some g → u.permission g = .stop) ∧
        (∀ e o, s.offerOf i = some (e, o) → (u.boundary e).outgoing = none) ∧
        (∀ k, k ≠ i → u.slot k = s.slot k) ∧ u.locking.locks = s.locking.locks ∧ u.claims = s.claims ∧
        (∀ e, (u.sect e).held = (s.sect e).held) ∧ u.field.points = s.field.points ∧
        u.time = s.time ∧ u.cfg = s.cfg ∧ u.host = { s.host with preparation := none } ∧ u.pending = s.pending)

/-- R163, R157, R95, R77: a RESUME that was prepared. From SAFE_HOLD it is carried out when no CRITICAL cause is present, the MAJOR count
does not exceed MAJOR_LIMIT and fewer than 32 records are held: the overflow flag is cleared, the mode becomes RESTRICTED, or STARTUP while
something is outstanding, and a point at rest with a FIRM lock, out of its position and with no order to it, gets one; so does a point
whose claims require the position and stand FIRM or given (R77). A point that is QUEUED, MOVING or FAULTED, lies where its lock and claims
want it, has its order already, or is held by nothing FIRM or given keeps its throw record. From RESTRICTED it is carried out
when no MAJOR or CRITICAL cause is present, to NORMAL. In every other case it draws BAD_STATE, and the mode stands. -/
def Obligations.Resumes : Prop :=
  ∀ (s : State) (h : Header) (d : Time), s.host.replies.length < 16 → h.authority = .auxiliary → s.host.preparation = some ⟨.resume, 0, d⟩ →
    let emptied : State := s.putPreparation none
    let present (c : FaultClass) : Prop := ∃ k sub, (k, sub) ∈ s.su.causes ∧ k.cls = c
    let mayLeave : Prop := ¬ present .critical ∧ s.majorCount ≤ s.cfg.params.majorLimit ∧ s.su.faults.entries.length < 32
    let badState : Prop := exec (.resume h) s = confirmed h .resume 0 emptied .refused 6 []
    let secured (p : Nat) : Prop :=
      (∃ i j q pos, i < 32 ∧ s.requirement i j = some q ∧ q.state = .held ∧ q.firm = true ∧ s.chosen i j = some (.localPoint p pos)) ∨
      ∃ l c, l < 4 ∧ c ∈ (s.link l).given ∧ c.element = p
    (s.su.mode = .safeHold → ¬ mayLeave → badState) ∧
    (s.su.mode = .safeHold → mayLeave →
      let m := if s.field.outstanding = 0 then Mode.restricted else .startup
      ∃ u : State, exec (.resume h) s = confirmed h .resume 0 u .done 0 [loByte m.code] ∧
        u.su = { s.su with mode := m, enableOut := m.enabled, overflow := false } ∧
        ((∀ g, (s.powerGroup g).queue = []) →
          (∀ p l pos, p ∈ s.points → s.lock p = some l → l.firm = true → l.required = some pos → s.detection p ≠ pos.detection →
            s.orderedTo p pos = false → (s.throwOf p).state = .atRest → u.orderedTo p pos = true) ∧
          (∀ p pos, p ∈ s.points → secured p → s.claimPosition p = some pos → s.lockPosition p = none ∨ s.lockPosition p = some pos →
            s.detection p ≠ pos.detection → s.orderedTo p pos = false → (s.throwOf p).state = .atRest → u.orderedTo p pos = true) ∧
          (∀ p, (∀ l, s.lock p = some l → l.firm = false) → ¬ secured p → u.throwOf p = s.throwOf p) ∧
          (∀ p, (s.throwOf p).state ≠ .atRest → u.throwOf p = s.throwOf p) ∧
          ∀ p, (∀ pos, s.lockPosition p = some pos ∨ s.claimPosition p = some pos →
              s.detection p = pos.detection ∨ s.orderedTo p pos = true) → u.throwOf p = s.throwOf p) ∧
        u.field = s.field ∧ u.locking = s.locking ∧ u.claims = s.claims ∧ u.links = s.links ∧ u.boundaries = s.boundaries ∧
        u.time = s.time ∧ u.cfg = s.cfg ∧ u.host = { s.host with preparation := none } ∧ u.pending = s.pending) ∧
    (s.su.mode = .restricted → present .critical ∨ present .major → badState) ∧
    (s.su.mode = .restricted → ¬ present .critical → ¬ present .major →
      ∃ u : State, exec (.resume h) s = confirmed h .resume 0 u .done 0 [4] ∧
        u.su = { s.su with mode := .normal, enableOut := true } ∧ .conditions ∈ u.work ∧ .device ∈ u.reports ∧
        u.field = s.field ∧ u.locking = s.locking ∧ u.claims = s.claims ∧ u.links = s.links ∧ u.boundaries = s.boundaries ∧
        u.movement = s.movement ∧ u.time = s.time ∧ u.cfg = s.cfg ∧ u.host = { s.host with preparation := none } ∧
        u.pending = s.pending) ∧
    (s.su.mode = .startup ∨ s.su.mode = .normal → badState)

/-- R164, R177: a RESTART that was prepared makes a warm restart. The configuration, device time, the replies and the frame on the line are
kept; the request queue, the host counters, the preparation, the fault list, the causes, every slot, lock, permission, claim, throw record
and boundary record are emptied, the field image is UNKNOWN with everything outstanding, every defined link is in PROVING, the silence
timer runs again, and the mode is STARTUP, or RESTRICTED at once when nothing is outstanding. That the telegram on a link's line is kept,
so that PROBE 0 waits behind it, is the model's choice (log 36). -/
def Obligations.Restarts : Prop :=
  ∀ (s : State) (h : Header) (d : Time), s.host.replies.length < 16 → s.su.mode.inService = true → h.authority = .auxiliary →
    s.host.preparation = some ⟨.restart, 0, d⟩ →
    let outstanding := (s.cfg.elements.entries.filter (fun e => match e.2 with
      | .boundary .. => false
      | _ => true)).length + s.cfg.groups.entries.length
    ∃ u : State, exec (.restart h) s = confirmed h .restart 0 u .done 0 [] ∧
      u.su.mode = (if outstanding = 0 then .restricted else .startup) ∧ u.su.enableOut = decide (outstanding = 0) ∧
      u.su.faults.entries = [] ∧ u.su.overflow = false ∧ u.su.causes = [] ∧
      u.su.silenceFirst = .running (s.time.plus s.cfg.params.silence1) ∧
      u.su.silenceSecond = .running (s.time.plus s.cfg.params.silence2) ∧
      u.host = ⟨⟨0, 0, 0, 0, 0⟩, [], s.host.replies, s.host.line, none⟩ ∧ u.reports = [.device] ∧
      u.field.outstanding = outstanding ∧ u.field.sections.entries = [] ∧ u.field.points.entries = [] ∧
      u.field.signals.entries = [] ∧ u.field.supplies.entries = [] ∧
      (∀ i, (u.slot i).state = .free ∧ (u.slot i).lastOutcome = .none) ∧
      (∀ e, u.lock e = none ∧ u.permission e = .stop ∧ u.claim e = none) ∧
      (∀ p, u.throwOf p = {}) ∧ (∀ g, u.powerGroup g = {}) ∧ (∀ e, u.boundary e = {}) ∧
      (∀ l, (s.cfg.links.find l).isSome = true → (u.link l).state = .proving ∧ (u.link l).counters = {} ∧ (u.link l).given = [] ∧
        (u.link l).retiredAsks = [] ∧ (u.link l).retiredOffers = [] ∧ (u.link l).neighbourMode = none ∧
        ((s.link l).sending = none → (u.link l).sending = some ((s.link l).txSeq, .probe 0 (probePattern probeLoad)) ∧
          (u.link l).queue = []) ∧
        ((s.link l).sending ≠ none → (u.link l).sending = (s.link l).sending ∧
          (u.link l).queue = [.probe 0 (probePattern probeLoad)])) ∧
      (∀ l, s.cfg.links.find l = none → u.link l = {}) ∧ u.cfg = s.cfg ∧ u.time = s.time ∧ u.pending = s.pending

/-! ### Routes and flank (03, 04) -/

/-- R39 to R44: a SET_ROUTE in service is refused by the first check that fails, with its data, and a refusal changes nothing: the body,
the ids, the mode, the route, a slot in use with the same entry (the lowest is named), no FREE slot, the first locked element with its
holder, the first point that is not available, the exit boundary's link, direction and offers, and the first flank requirement that the
trial cannot serve. R44, R66 to R68: the flank trial. It chooses for every requirement its first candidate that can be had, an ask on a
link counting the asks chosen before it; it fails at the first requirement none of whose candidates can be had. -/
def Obligations.SetRouteRefusals : Prop :=
  (∀ (s : State) (rq : Request), s.host.replies.length < 16 → s.su.mode.inService = true →
    let refusedBy (reason : Nat) (data : List Byte) : Prop := exec (.setRoute rq) s = handled 0x20 rq s .refused reason data
    (rq.body.length ≠ 3 → refusedBy 5 [1, 0, 0]) ∧
    ∀ a b g : Byte, rq.body = [a, b, g] →
      (255 < num2 a b ∨ 15 < g → refusedBy 5 [0, 0, 0]) ∧
      (num2 a b ≤ 255 → g ≤ 15 → s.su.mode ≠ .normal → refusedBy 1 [loByte s.su.mode.code]) ∧
      (num2 a b ≤ 255 → g ≤ 15 → s.su.mode = .normal →
        (s.routeDef (num2 a b) = none → refusedBy 3 []) ∧
        ∀ r, s.routeDef (num2 a b) = some r →
          let clash (i : Nat) : Prop := (s.slot i).state ≠ .free ∧
            ∃ x d, (s.slot i).route = some x ∧ s.routeDef x = some d ∧ d.entry = r.entry
          let free (q : PointReq) : Prop := (s.throwOf q.point).state ≠ .faulted ∧
            (s.claimCount q.point = 0 ∨ s.claimState q.point = some q.position.required) ∧
            s.orderedTo q.point q.position.other = false ∧
            (s.detection q.point = q.position.detection ∨ (s.sect (s.containing q.point)).held = .clear)
          (∀ i, i < 32 → clash i → (∀ j, j < i → ¬ clash j) → refusedBy 8 [loByte i]) ∧
          ((∀ i, i < 32 → ¬ clash i) → (∀ i, i < 32 → (s.slot i).state ≠ .free) → refusedBy 7 []) ∧
          ((∀ i, i < 32 → ¬ clash i) → (∃ i, i < 32 ∧ (s.slot i).state = .free) →
            (∀ pre e post l, r.lockOrder = pre ++ e :: post → (∀ x ∈ pre, s.lock x = none) → s.lock e = some l →
              refusedBy 9 (bytes2 e ++ [loByte l.holder])) ∧
            ((∀ x ∈ r.lockOrder, s.lock x = none) →
              (∀ pre q post, r.allPoints = pre ++ q :: post → (∀ x ∈ pre, free x) → ¬ free q → refusedBy 10 (bytes2 q.point)) ∧
              ((∀ q ∈ r.allPoints, free q) →
                (∀ link remote role adjacent, s.defn r.exit = some (.boundary link remote role adjacent) →
                  let sends : Prop := role = .exit ∨ role = .both ∧ (s.boundary r.exit).direction = .outbound
                  ((s.link link).state ≠ .up → refusedBy 13 [loByte link]) ∧
                  ((s.link link).state = .up → ¬ sends → refusedBy 12 (bytes2 r.exit)) ∧
                  ((s.link link).state = .up → sends →
                    (s.boundary r.exit).outgoing ≠ none ∨ (s.boundary r.exit).incoming ≠ none → refusedBy 8 (bytes2 r.exit))) ∧
                (s.exitRefusal r = none → ∀ i j, s.freeSlot = some i → s.trial i 0 [] r.flank = .error j →
                  refusedBy 11 [loByte j])))))) ∧
  ∀ (s : State) (i : Nat) (flank : List FlankReq),
    let asks (cs : List (Nat × Candidate)) (l : Nat) : Nat := (cs.filter (fun c => match c.2 with
      | .remote m _ _ => m == l
      | _ => false)).length
    let fits (cs : List (Nat × Candidate)) (c : Candidate) : Prop := s.canHave i (asks cs) c
    (∀ cs, s.trial i 0 [] flank = .ok cs → cs.length = flank.length ∧
      ∀ (j k : Nat) (q : FlankReq) (c : Candidate), flank[j]? = some q → cs[j]? = some (k, c) →
        q.candidates[k]? = some c ∧ fits (cs.take j) c ∧ ∀ c' ∈ q.candidates.take k, ¬ fits (cs.take j) c') ∧
    ∀ j, s.trial i 0 [] flank = .error j →
      ∃ (cs : List (Nat × Candidate)) (q : FlankReq), s.trial i 0 [] (flank.take j) = .ok cs ∧ flank[j]? = some q ∧
        ∀ c ∈ q.candidates, ¬ fits cs c

/-- R45, R46, R50: a SET_ROUTE that passes every check takes the lowest FREE slot. Its route, group and requirements are recorded, its
elements are locked, its exit boundary offers, and it is PENDING with its needs and its pending timer, or, with no need, LOCKED with firm
locks at once. The reply is ACCEPTED with the slot. The premise on the route says that it locks no element twice (R23 to R25, R29). -/
def Obligations.SetRouteTakes : Prop :=
  ∀ (s : State) (rq : Request) (a b g : Byte) (r : RouteDef) (plan : RoutePlan), s.host.replies.length < 16 → s.su.mode = .normal →
    rq.body = [a, b, g] → num2 a b ≤ 255 → g ≤ 15 → s.routeDef (num2 a b) = some r → s.planRoute r = .ok plan → r.lockOrder.Nodup →
    let i := plan.slot
    let asksRemote (j : Nat) : Prop := ∃ k l e q, plan.choices[j]? = some (k, .remote l e q)
    let secured : Prop := g = 0 ∧ s.isBoundary r.exit = false ∧ ∀ j, ¬ asksRemote j
    ∃ u : State, exec (.setRoute rq) s = handled 0x20 rq u .accepted 0 [loByte i] ∧
      i < 32 ∧ (s.slot i).state = .free ∧ (∀ k, k < i → (s.slot k).state ≠ .free) ∧
      (u.slot i).route = some (num2 a b) ∧ (u.slot i).group = some g.toNat ∧ (u.slot i).pendingSince = some s.time ∧
      (u.slot i).hasBeenOpened = false ∧ (u.slot i).requirements.length = r.flank.length ∧
      (u.slot i).rel = { overlap := if r.overlap.isSome then .held else .none } ∧
      (secured → (u.slot i).state = .locked ∧ (u.slot i).needs = {} ∧ (u.slot i).pendingTimer = .stopped) ∧
      (¬ secured → (u.slot i).state = .pending ∧
        (u.slot i).pendingTimer = .running (s.time.plus (s.cfg.params.pendingLimit * 100)) ∧
        ((u.slot i).needs.group = true ↔ g ≠ 0) ∧ ((u.slot i).needs.acceptance = true ↔ s.isBoundary r.exit = true) ∧
        ((u.slot i).needs.flank = true ↔ ∃ j, asksRemote j)) ∧
      (∀ e, ∃ firm, (firm = true ↔ secured) ∧
        (e ∈ r.path → u.lock e = some ⟨i, .path, firm, none⟩) ∧ (e ∈ r.overlapSections → u.lock e = some ⟨i, .overlap, firm, none⟩) ∧
        (∀ q ∈ r.points, u.lock q.point = some ⟨i, .path, firm, some q.position⟩) ∧
        (∀ q ∈ r.overlapPoints, u.lock q.point = some ⟨i, .overlap, firm, some q.position⟩)) ∧
      (∀ e, e ∉ r.lockOrder → u.lock e = s.lock e) ∧
      (∀ (j k : Nat) (c : Candidate), plan.choices[j]? = some (k, c) → ∃ q : Requirement, u.requirement i j = some q ∧
        q.candidate = some k ∧ (q.state = .asked ↔ asksRemote j) ∧ (q.state = .held ↔ ¬ asksRemote j)) ∧
      (r.cls = .entry → (u.boundary r.entry).entrySlot = some i) ∧
      (s.isBoundary r.exit = true → ∃ o, (u.boundary r.exit).outgoing = some o ∧ o.slot = i ∧ o.accepted = false) ∧
      (∀ k, k ≠ i → u.slot k = s.slot k) ∧ u.locking.permissions = s.locking.permissions ∧
      u.field = s.field ∧ u.time = s.time ∧ u.cfg = s.cfg ∧ u.host = s.host ∧ u.pending = s.pending

/-- R49: a commit. The slot is LOCKED with no need and its pending timer stopped, its locks and its claims are FIRM, and every point of the
route, and every point it holds as flank, that is at rest out of its position, with no order to it, gets one, unless the part is in
SAFE_HOLD. The premises say that the route names no point twice, as a point of its own or in two positions as flank (R25 to R27), and that
a point in a queue is QUEUED. R48, R51: the groups. COMMIT_GROUP takes the GROUP need from every PENDING slot
of its group that has it, and commits those left with no need; CANCEL_GROUP drops every PENDING slot of its group. Each answers DONE with
how many there were; that the count is one byte is the model's choice (log 25). A body that is not one byte, or a group that is not 1 to 15,
draws BAD_FIELD. -/
def Obligations.SlotsCommit : Prop :=
  (∀ (s : State) (i : Nat) (r : RouteDef), s.routeOf i = some r → (r.allPoints.map PointReq.point).Nodup →
    (∀ g p, p ∈ (s.powerGroup g).queue → (s.throwOf p).state = .queued) →
    let t := s.commit i
    (t.slot i).state = .locked ∧ (t.slot i).needs = {} ∧ (t.slot i).pendingTimer = .stopped ∧
    (t.slot i).hasBeenOpened = false ∧ (t.slot i).route = (s.slot i).route ∧ (t.slot i).group = (s.slot i).group ∧
    (t.slot i).rel = (s.slot i).rel ∧ (t.slot i).waiting = (s.slot i).waiting ∧
    (∀ e l, s.lock e = some l → t.lock e = some (if l.holder = i ∧ e ∈ r.lockOrder then { l with firm := true } else l)) ∧
    (∀ e, s.lock e = none → t.lock e = none) ∧
    (∀ j q, s.requirement i j = some q → ∃ q', t.requirement i j = some q' ∧ q'.state = q.state ∧ q'.candidate = q.candidate ∧
      ((∀ l e w, s.chosen i j ≠ some (.remote l e w)) → q'.firm = true)) ∧
    (s.su.mode ≠ .safeHold → ∀ q ∈ r.allPoints, s.isPoint q.point = true → (s.throwOf q.point).state = .atRest →
      s.detection q.point ≠ q.position.detection → s.orderedTo q.point q.position = false →
      (t.throwOf q.point).order = some ⟨q.position, true⟩) ∧
    (s.su.mode ≠ .safeHold → ∀ j q p pos, s.requirement i j = some q → q.state = .held → s.chosen i j = some (.localPoint p pos) →
      s.isPoint p = true → p ∉ r.allPoints.map PointReq.point → (∀ x pos', s.chosen i x = some (.localPoint p pos') → pos' = pos) →
      (s.throwOf p).state = .atRest → s.detection p ≠ pos.detection → s.orderedTo p pos = false →
      (t.throwOf p).order = some ⟨pos, true⟩) ∧
    (s.su.mode = .safeHold → t.movement = s.movement) ∧
    (∀ k, k ≠ i → t.slot k = s.slot k) ∧ t.locking.permissions = s.locking.permissions ∧ t.claims = s.claims ∧
    t.field = s.field ∧ t.links = s.links ∧ t.boundaries = s.boundaries ∧ t.su = s.su ∧ t.time = s.time ∧ t.cfg = s.cfg ∧
    t.host = s.host) ∧
  ∀ (s : State) (rq : Request), s.host.replies.length < 16 → s.su.mode.inService = true →
    let ofGroup (g : Byte) (i : Nat) : Bool := (s.slot i).state == .pending && (s.slot i).group == some g.toNat
    (rq.body.length ≠ 1 → exec (.cancelGroup rq) s = handled 0x23 rq s .refused 5 [1, 0, 0] ∧
      (s.su.mode ≠ .safeHold → exec (.commitGroup rq) s = handled 0x22 rq s .refused 5 [1, 0, 0])) ∧
    ∀ g : Byte, rq.body = [g] →
      (g = 0 ∨ 15 < g → exec (.cancelGroup rq) s = handled 0x23 rq s .refused 5 [0, 0, 0] ∧
        (s.su.mode ≠ .safeHold → exec (.commitGroup rq) s = handled 0x22 rq s .refused 5 [0, 0, 0])) ∧
      (1 ≤ g → g ≤ 15 →
        (∃ u : State, exec (.cancelGroup rq) s = handled 0x23 rq u .done 0
            [loByte ((List.range 32).filter (ofGroup g)).length] ∧
          (∀ i, u.slot i = if i < 32 ∧ ofGroup g i = true then { lastOutcome := .dropped .groupCancelled } else s.slot i) ∧
          u.time = s.time ∧ u.cfg = s.cfg ∧ u.host = s.host ∧ u.pending = s.pending) ∧
        (s.su.mode ≠ .safeHold →
          let waits (i : Nat) : Bool := ofGroup g i && (s.slot i).needs.group
          let alone (i : Nat) : Prop := (s.slot i).needs.acceptance = false ∧ (s.slot i).needs.flank = false
          ∃ u : State, exec (.commitGroup rq) s = handled 0x22 rq u .done 0 [loByte ((List.range 32).filter waits).length] ∧
            (∀ i, i < 32 → waits i = true → alone i → s.routeOf i ≠ none →
              (u.slot i).state = .locked ∧ (u.slot i).needs = {} ∧ (u.slot i).pendingTimer = .stopped) ∧
            (∀ i, i < 32 → waits i = true → ¬ alone i →
              u.slot i = { s.slot i with needs := { (s.slot i).needs with group := false } }) ∧
            (∀ i, ¬ (i < 32 ∧ waits i = true) → u.slot i = s.slot i) ∧
            u.locking.permissions = s.locking.permissions ∧ u.claims = s.claims ∧ u.field = s.field ∧ u.links = s.links ∧
            u.boundaries = s.boundaries ∧ u.su = s.su ∧ u.time = s.time ∧ u.cfg = s.cfg ∧ u.host = s.host ∧
            u.pending = s.pending))

/-- R52, R62: a slot becomes FREE with its last outcome and nothing else of it left. Every lock it held on the elements of its route is
gone, and no other lock; the claim count of an element falls by one for each of its requirements HELD there; each ask is given up with
FLANK_RELEASE and its reference retired (R73, R78); an offer of its own is withdrawn; its entry boundary forgets it. R50, R57, R109, R110,
R116: the timers of a slot, when due and in the state they belong to. The pending timer drops the slot with TIMEOUT. The proving timer
withdraws the permission, returns the slot to LOCKED and raises SIGNAL_NOT_PROVEN. The overlap timer releases the overlap. The approach
timer and the emergency timer release the slot, and the first answers a neighbour that waits with RELEASED (R137). That a timer which is
not due, or comes in another state, changes nothing is the model's choice (log 14), and so is it that the slot whose proving timer ran out
is marked to wait for an event of its own (log 35), that RELEASED is handed when the slot is gone (log 39), and that FLANK_RELEASE and
WITHDRAW are handed for a deferred ask and offer too, whose reference is not retired (log 22). -/
def Obligations.SlotsAreVacated : Prop :=
  (∀ (s : State) (i : Nat) (out : LastOutcome) (r : RouteDef), s.routeOf i = some r →
    let t := s.vacate i out
    t.slot i = { lastOutcome := out } ∧ (∀ k, k ≠ i → t.slot k = s.slot k) ∧
    (∀ e, t.lock e = match s.lock e with
      | some l => if l.holder = i ∧ e ∈ r.lockOrder then none else some l
      | none => none) ∧
    t.locking.permissions = s.locking.permissions ∧
    (let js := List.range (s.slot i).requirements.length
     (s.asksAbroad i → s.givesUp t i js) ∧
      ∀ l, s.sends t l (s.releases i l js ++ match s.offerOf i with
        | some (e, _) => if s.linkOf e = some l then [.withdraw i] else []
        | none => [])) ∧
    (∀ e o, s.offerOf i = some (e, o) → (t.boundary e).outgoing = none) ∧
    (r.cls = .entry → (s.boundary r.entry).entrySlot = some i →
      (t.boundary r.entry).entrySlot = none ∧ (t.boundary r.entry).awaited = none) ∧
    (s.isBoundary r.exit = true → (t.boundary r.exit).releasedPending ≠ some i) ∧
    (.flankLost, .slot i) ∉ t.su.causes ∧ (.unauthorisedPassing, .slot i) ∉ t.su.causes ∧
    (s.su.mode.inService = true → s.slot i ≠ { lastOutcome := out } → .slot i ∈ t.reports) ∧
    t.field.points = s.field.points ∧ t.field.signals = s.field.signals ∧ t.field.supplies = s.field.supplies ∧
    (∀ e, (t.sect e).held = (s.sect e).held ∧ (t.sect e).latest = (s.sect e).latest) ∧
    t.time = s.time ∧ t.cfg = s.cfg ∧ t.host = s.host) ∧
  ∀ (s : State) (i : Nat) (r : RouteDef), s.routeOf i = some r →
    let x := s.slot i
    let due (t : Timer) : Prop := ∃ d, t = .running d ∧ Time.reached s.time d = true
    let kept (u : State) : Prop := (∀ k, k ≠ i → u.slot k = s.slot k) ∧ u.time = s.time ∧ u.cfg = s.cfg ∧ u.host = s.host ∧
      u.pending = s.pending
    let unlocked (u : State) : Prop := ∀ e l, s.lock e = some l → l.holder = i → e ∈ r.lockOrder → u.lock e = none
    (due x.pendingTimer → x.state = .pending → ∃ u, exec (.pendingTimerExpiry i) s = settled u ∧ kept u ∧ unlocked u ∧
      u = s.vacate i (.dropped .timeout) ∧
      u.slot i = { lastOutcome := .dropped .timeout }) ∧
    (¬ due x.pendingTimer ∨ x.state ≠ .pending → exec (.pendingTimerExpiry i) s = .next s) ∧
    (due x.provingTimer → x.state = .opened → ∃ u, exec (.provingTimerExpiry i) s = settled u ∧ kept u ∧
      u.slot i = { x with state := .locked, provingTimer := .stopped, unproven := true } ∧ u.locking.locks = s.locking.locks ∧ u.claims = s.claims ∧
      ∀ g, s.entrySignal i = some g → u.permission g = .stop ∧ (.signalNotProven, .element g) ∈ u.su.causes) ∧
    (¬ due x.provingTimer ∨ x.state ≠ .opened → exec (.provingTimerExpiry i) s = .next s) ∧
    (due x.rel.overlapTimer → x.state = .passing → ∃ u, exec (.overlapTimerExpiry i) s = settled u ∧ kept u ∧
      ((u.slot i).state = .passing ∧ (u.slot i).rel.overlap = .released ∧ (u.slot i).rel.overlapTimer = .stopped ∨
        u.slot i = { lastOutcome := .released .passed }) ∧
      ∀ e l, s.lock e = some l → l.holder = i → e ∈ r.overlapSections ++ r.overlapPoints.map PointReq.point → u.lock e = none) ∧
    (¬ due x.rel.overlapTimer ∨ x.state ≠ .passing → exec (.overlapTimerExpiry i) s = .next s) ∧
    (due x.rel.approachTimer → x.state = .approachLocked → ∃ u, exec (.approachTimerExpiry i) s = settled u ∧ kept u ∧ unlocked u ∧
      u.slot i = { lastOutcome := .released .approachExpired } ∧
      (let v := s.vacate i (.released .approachExpired)
       u = (match s.exitBoundary i with
          | some e => match s.linkOf e with
            | some l => if (s.boundary e).releasedPending = some i then v.hand l (.released i) else v
            | none => v
          | none => v)) ∧
      ∀ e, s.exitBoundary i = some e → (u.boundary e).releasedPending ≠ some i) ∧
    (¬ due x.rel.approachTimer ∨ x.state ≠ .approachLocked → exec (.approachTimerExpiry i) s = .next s) ∧
    (due x.rel.emergencyTimer → x.state = .timedRelease → ∃ u, exec (.emergencyTimerExpiry i) s = settled u ∧ kept u ∧ unlocked u ∧
      u = s.vacate i (.released .emergency) ∧
      u.slot i = { lastOutcome := .released .emergency }) ∧
    (¬ due x.rel.emergencyTimer ∨ x.state ≠ .timedRelease → exec (.emergencyTimerExpiry i) s = .next s)

/-- R61 to R63, R141: a CANCEL_ROUTE in service. Its effect is by the slot's state: FREE draws NOT_FOUND, PASSING BAD_STATE, and
APPROACH_LOCKED, TIMED_RELEASE and AWAIT_RELEASED are DONE with no change; PENDING is dropped; of LOCKED and OPEN, one whose incoming offer
has been accepted waits for RELEASED, one that has been opened with its approach occupied is approach locked with every lock kept, and any
other is released. -/
def Obligations.CancelledRoutes : Prop :=
  ∀ (s : State) (rq : Request), s.host.replies.length < 16 → s.su.mode.inService = true →
    let refusedBy (reason : Nat) (data : List Byte) : Prop := exec (.cancelRoute rq) s = handled 0x21 rq s .refused reason data
    (rq.body.length ≠ 1 → refusedBy 5 [1, 0, 0]) ∧
    ∀ a : Byte, rq.body = [a] → (31 < a → refusedBy 5 [0, 0, 0]) ∧
      (a ≤ 31 →
        let i := a.toNat
        let x := s.slot i
        let doneWith (u : State) : Prop := exec (.cancelRoute rq) s = handled 0x21 rq u .done 0 [] ∧
          (∀ k, k ≠ i → u.slot k = s.slot k) ∧ u.time = s.time ∧ u.cfg = s.cfg ∧ u.host = s.host ∧ u.pending = s.pending
        let stopped (u : State) : Prop := ∀ g, x.state = .opened → s.entrySignal i = some g → u.permission g = .stop
        (x.state = .free → refusedBy 4 []) ∧ (x.state = .passing → refusedBy 6 []) ∧
        (x.state = .approachLocked ∨ x.state = .timedRelease ∨ x.state = .awaitReleased →
          exec (.cancelRoute rq) s = handled 0x21 rq s .done 0 []) ∧
        (x.state = .pending → ∃ u, doneWith u ∧ u.slot i = { lastOutcome := .dropped .cancelled } ∧
          u.locking.permissions = s.locking.permissions) ∧
        (x.state = .locked ∨ x.state = .opened →
          ∀ r, s.routeOf i = some r →
            let approached : Prop := r.approach = [] ∨ ∃ e ∈ r.approach, (s.sect e).held ≠ .clear
            (∀ o, r.cls = .entry → (s.boundary r.entry).incoming = some o → o.accepted = true →
              (s.boundary r.entry).entrySlot = some i →
              ∃ u, doneWith u ∧ u.slot i = { x with state := .awaitReleased, waiting := {} } ∧
                u.boundary r.entry = { s.boundary r.entry with awaited := some o.reference, incoming := none } ∧
                u.locking.locks = s.locking.locks ∧ u.locking.permissions = s.locking.permissions ∧ u.claims = s.claims) ∧
            ((∀ o, r.cls = .entry → (s.boundary r.entry).incoming = some o → o.accepted = true →
                (s.boundary r.entry).entrySlot ≠ some i) →
              (x.hasBeenOpened = true → approached →
                ∃ u, doneWith u ∧ stopped u ∧ (u.slot i).state = .approachLocked ∧ (u.slot i).waiting = {} ∧
                  (x.state = .opened → (u.slot i).provingTimer = .stopped) ∧
                  (u.slot i).rel = s.approachRecord r x.rel ∧ (u.slot i).requirements = x.requirements ∧
                  (u.slot i).hasBeenOpened = true ∧ u.locking.locks = s.locking.locks ∧ u.claims = s.claims ∧
                  u.movement = s.movement ∧ u.boundaries = s.boundaries ∧ u.links = s.links) ∧
              (x.hasBeenOpened = false ∨ ¬ approached →
                ∃ u, doneWith u ∧ stopped u ∧ u.slot i = { lastOutcome := .released .cancelled } ∧
                  (∀ e l, s.lock e = some l → l.holder = i → e ∈ r.lockOrder → u.lock e = none)))))

/-- R54: the waiting reasons of a slot. None stands exactly when its points lie in position with no order, its flank is HELD and satisfied,
its sections are CLEAR, its exit boundary's offer is ACCEPTED over a link that is not DOWN, its entry boundary is of role ENTRY or INBOUND,
its entry signal holds no claim and its proving agrees with its permission, with no event of its own awaited since its proving timer ran
out (R57 as the model reads it, log 35), the mode is NORMAL or RESTRICTED, and the host is not silent. R56, R58, R59: the LE's evaluation.
A LOCKED slot with no reason to wait opens: its signal shows PROCEED and its proving timer runs, or, of class ENTRY, an offer that waits at
its element is accepted. One with a reason shows it. An OPEN slot with a reason other than its proving loses its permission and is LOCKED,
and a path section beyond the first that is not CLEAR raises UNEXPECTED_OCCUPANCY. While the mode is neither NORMAL nor RESTRICTED, or the
host is silent, the LE leaves no slot OPEN. -/
def Obligations.SlotsOpenAndFallBack : Prop :=
  (∀ (s : State) (i : Nat) (r : RouteDef), s.routeOf i = some r →
    (s.failing i = {} ↔
      (∀ q ∈ r.points ++ r.overlapPoints, s.detection q.point = q.position.detection ∧ (s.throwOf q.point).order = none) ∧
      (∀ j, j < (s.slot i).requirements.length → ∃ q c, s.requirement i j = some q ∧ s.chosen i j = some c ∧ q.state = .held ∧
        (∀ p pos, c = .localPoint p pos → s.detection p = pos.detection) ∧
        (∀ g, c = .localSignal g → (s.signal g).proving = .stopProven)) ∧
      (∀ e ∈ r.path ++ r.overlapSections, (s.sect e).held = .clear) ∧
      (∀ link remote role adjacent, s.defn r.exit = some (.boundary link remote role adjacent) →
        (∃ o, (s.boundary r.exit).outgoing = some o ∧ o.slot = i ∧ o.accepted = true) ∧
        ((s.link link).state = .up ∨ (s.link link).state = .suspect)) ∧
      (r.cls = .entry → s.roleOf r.entry = some .entry ∨ s.roleOf r.entry = some .both ∧ (s.boundary r.entry).direction = .inbound) ∧
      (r.cls ≠ .entry → s.claimCount r.entry = 0 ∧ (s.slot i).unproven = false ∧
        (s.permission r.entry = .stop → (s.signal r.entry).proving = .stopProven) ∧
        (s.permission r.entry = .proceed → (s.signal r.entry).proving = .proceedProven ∨
          (s.signal r.entry).proving = .stopProven ∧ (s.slot i).provingTimer ≠ .stopped)) ∧
      (s.su.mode = .normal ∨ s.su.mode = .restricted) ∧ (.hostSilent, .device) ∉ s.su.causes)) ∧
  (∀ (s : State) (i : Nat) (r : RouteDef), s.routeOf i = some r → (s.slot i).state = .locked →
    let t := s.evaluateSlot i
    (s.failing i = {} → r.cls ≠ .entry →
      t.slot i = { s.slot i with state := .opened, waiting := {}, hasBeenOpened := true,
                                 provingTimer := .running (s.time.plus (s.provingLimit r.entry)) } ∧
      t.permission r.entry = .proceed ∧ (∀ g, g ≠ r.entry → t.permission g = s.permission g) ∧ t.boundaries = s.boundaries) ∧
    (s.failing i = {} → r.cls = .entry →
      (t.slot i).state = .opened ∧ (t.slot i).waiting = {} ∧ t.locking.permissions = s.locking.permissions ∧
      (∀ o, (s.boundary r.entry).entrySlot = some i → (s.boundary r.entry).incoming = some o → o.accepted = false →
        (t.boundary r.entry).incoming = some { o with accepted := true } ∧ (t.slot i).hasBeenOpened = true) ∧
      ((s.boundary r.entry).entrySlot ≠ some i ∨ (∀ o, (s.boundary r.entry).incoming = some o → o.accepted = true) →
        (s.boundary r.entry).entrySlot = some i ∨ (s.boundary r.entry).entrySlot = none →
        t.boundaries = s.boundaries ∧ (t.slot i).hasBeenOpened = (s.slot i).hasBeenOpened)) ∧
    (s.failing i ≠ {} → t.slot i = { s.slot i with waiting := s.failing i } ∧ t.locking.permissions = s.locking.permissions) ∧
    t.locking.locks = s.locking.locks ∧ t.claims = s.claims) ∧
  (∀ (s : State) (i : Nat) (r : RouteDef), s.routeOf i = some r → (s.slot i).state = .opened →
    let t := s.evaluateSlot i
    (s.failing i = {} → t = s) ∧
    ({ s.failing i with proving := false } ≠ {} →
      (t.slot i).state = .locked ∧ (t.slot i).provingTimer = .stopped ∧ (t.slot i).waiting ≠ {} ∧
      (t.slot i).hasBeenOpened = (s.slot i).hasBeenOpened ∧ (t.slot i).requirements = (s.slot i).requirements ∧
      (∀ g, s.entrySignal i = some g → t.permission g = .stop) ∧
      (∀ e ∈ r.path.drop 1, (s.sect e).held ≠ .clear → (.unexpectedOccupancy, .element e) ∈ t.su.causes) ∧
      t.locking.locks = s.locking.locks ∧ t.claims = s.claims)) ∧
  ∀ s : State, ¬ (s.su.mode = .normal ∨ s.su.mode = .restricted) ∨ (.hostSilent, .device) ∈ s.su.causes →
    ∀ i, i < 32 → s.routeOf i ≠ none → (s.lockingPass.slot i).state ≠ .opened

/-! ### Passage and release (06) -/

/-- R110 to R113: the approach release time. A route that is not MAIN, or has no approach sections, takes its fixed time. Any other takes
the speed of the last valid pair of arrivals on its approach, or its Vmax, caps it at 12,000 cm/s, and takes from it the braking time and
the release time, every quotient being the least whole number not below it, clamped to 50 to 3000 tenths of a second. -/
def Obligations.ApproachTimes : Prop :=
  ∀ (s : State) (r : RouteDef) (rel : ReleaseRecord), 1 ≤ r.decel →
    let t := s.approachRecord r rel
    let valid (x y dt : Nat) : Prop := ∃ tx ty, (s.sect x).occupiedAt = some tx ∧ (s.sect y).occupiedAt = some ty ∧
      (ty - tx).toNat = dt ∧ dt ≤ 600000 ∧ (s.time - ty).toNat ≤ s.cfg.params.staleness
    (r.cls ≠ .main ∨ r.approach = [] → t = { rel with
      method := some .fixed, measurement := none, vUsed := none, releaseTime := some r.fixedTime, speedClamped := false,
      timeClamped := false, approachTimer := .running (s.time.plus (r.fixedTime * 100)) }) ∧
    (r.cls = .main → r.approach ≠ [] →
      (∀ pre x y dt, r.approach = pre ++ [x, y] → valid x y dt → t.measurement = some ⟨x, y, dt⟩) ∧
      (∀ w x y dt, r.approach = [w, x, y] → (∀ n, ¬ valid x y n) → valid w x dt → t.measurement = some ⟨w, x, dt⟩) ∧
      (r.approach.length ≤ 3 → (∀ pre x y post n, r.approach = pre ++ x :: y :: post → ¬ valid x y n) → t.measurement = none) ∧
      ∃ v speed braking raw : Nat,
        (∀ m, t.measurement = some m → ∃ measured,
          (m.dt = 0 → measured = 12000) ∧ (m.dt ≠ 0 → IsLeast { n | s.lengthOf m.first * 100000 ≤ n * m.dt } measured) ∧
          IsLeast { n | measured * (100 + s.cfg.params.margin) ≤ n * 100 } v) ∧
        (t.measurement = none → v = r.vmax) ∧ speed = min v 12000 ∧
        IsLeast { n | speed * 1000 ≤ n * r.decel } braking ∧ IsLeast { n | braking + r.reaction ≤ n * 100 } raw ∧
        t = { rel with
          method := some .computed, measurement := t.measurement, vUsed := some speed,
          releaseTime := some (max 50 (min 3000 raw)), speedClamped := decide (12000 < v),
          timeClamped := decide (raw < 50 ∨ 3000 < raw),
          approachTimer := .running (s.time.plus (max 50 (min 3000 raw) * 100)) })

/-- R99 to R103: the first path section of a slot is reported OCCUPIED or DISTURBED. A slot OPEN, LOCKED, APPROACH_LOCKED or AWAIT_RELEASED
enters PASSING with its permission withdrawn, passed_at set and the marks of its path armed; it is an unauthorised passing for a signal's
route that was not OPEN, and for an ENTRY route OPEN or LOCKED that had accepted no train. A PASSING slot stays so, with its passed_at and
no section released; of it only a HELD overlap may change (R109). A slot in TIMED_RELEASE only has its first passage stamped, and a FREE or
PENDING one, or one in TIMED_RELEASE that has its stamp, does not change. -/
def Obligations.TrainsPassTheEntry : Prop :=
  ∀ (s : State) (rq : Request) (a b v : Byte) (n : Nat) (o : Occupation) (l : Lock) (r : RouteDef),
    s.host.replies.length < 16 → s.su.mode.inService = true → rq.body = [a, b, 1, v] → s.defn (num2 a b) = some (.sect n) →
    (v, o) ∈ [((2 : Byte), Occupation.occupied), (3, .disturbed)] →
    let e := num2 a b
    (s.sect e).latest ≠ some o → (s.sect e).held ≠ o → (s.sect e).held ≠ .disturbed →
    s.lock e = some l → l.kind = .path → s.routeOf l.holder = some r → r.path.head? = some e → (s.slot l.holder).rel.released = 0 →
    let i := l.holder
    let x := s.slot i
    let admitted : Prop := r.cls = .entry ∧ x.hasBeenOpened = true
    ∃ u : State, exec (.fieldReport rq) s = handled 0x10 rq u.settle .done 0 [1, 0xFF] ∧
      (x.state = .opened ∨ x.state = .locked ∨ x.state = .approachLocked ∨ x.state = .awaitReleased →
        let unauthorised : Prop := (x.state = .locked ∨ x.state = .approachLocked) ∧ r.cls ≠ .entry ∨
          (x.state = .opened ∨ x.state = .locked) ∧ r.cls = .entry ∧ x.hasBeenOpened = false
        (u.slot i).state = .passing ∧ (u.slot i).rel.passedAt = some s.time ∧ (u.slot i).rel.approachTimer = .stopped ∧
        (u.slot i).provingTimer = .stopped ∧ (u.slot i).waiting = {} ∧ (u.slot i).rel.released = 0 ∧
        (u.slot i).rel.method = x.rel.method ∧ (u.slot i).rel.measurement = x.rel.measurement ∧
        (u.slot i).rel.vUsed = x.rel.vUsed ∧ (u.slot i).rel.releaseTime = x.rel.releaseTime ∧
        (∀ d ∈ r.path, (u.sect d).mark = .armed (d == e || s.isOccupied d)) ∧
        (∀ d ∈ r.path, u.lock d = s.lock d ∨ d ∈ r.overlapSections ++ r.overlapPoints.map PointReq.point) ∧
        (∀ g, x.state = .opened → s.entrySignal i = some g → u.permission g = .stop) ∧
        (unauthorised → (.unauthorisedPassing, .slot i) ∈ u.su.causes) ∧
        (¬ unauthorised → (.unauthorisedPassing, .slot i) ∈ u.su.causes → (.unauthorisedPassing, .slot i) ∈ s.su.causes)) ∧
      (x.state = .timedRelease → x.rel.passedAt = none →
        u.slot i = { x with rel := { x.rel with passedAt := some s.time } } ∧
        (¬ admitted → (.unauthorisedPassing, .slot i) ∈ u.su.causes)) ∧
      (x.state = .passing → (u.slot i).state = .passing ∧ (u.slot i).rel.released = 0 ∧ (u.slot i).rel.passedAt = x.rel.passedAt ∧
        (x.rel.overlap ≠ .held → u.slot i = x)) ∧
      (x.state = .free ∨ x.state = .pending ∨ x.state = .timedRelease ∧ x.rel.passedAt ≠ none → u.slot i = x) ∧
      (∀ k, k ≠ i → u.slot k = s.slot k) ∧ u.time = s.time ∧ u.cfg = s.cfg ∧ u.host = s.host ∧ u.pending = s.pending

/-- R104 to R107, R109: sectional release of a PASSING slot. Its first unreleased section is released when it is CLEAR with its mark set,
the train is known beyond it, and, for the first of an ENTRY route, the neighbour has cleared behind; the locks of its path points go with
it, and the flank of those points is released, claims and asks (R106, R78). With the last, which an overlap still HELD or TIMING holds
back, the slot becomes FREE, PASSED, its offer is used up, and CLEARED_BEHIND is handed for its exit boundary element (R143). A section
that is not to be released yet holds the rest. The overlap timer starts when the mark of the last section is set; with a release time of 0
the overlap goes at once, with the flank of its own points. -/
def Obligations.SectionsAreReleased : Prop :=
  ∀ (s : State) (i k e : Nat) (r : RouteDef), s.routeOf i = some r → (s.slot i).state = .passing → (s.slot i).rel.released = k →
    r.path[k]? = some e →
    let t := s.evaluateRelease i
    let seen (d : Nat) : Prop := (s.sect d).mark = .armed true
    let beyond : Prop := match r.path[k + 1]? with
      | some d => (s.sect d).held ≠ .clear ∨ seen d
      | none => if s.isBoundary r.exit = true then (s.boundary r.exit).occupiedBeyond = true
          else (s.slot i).rel.overlap = .none ∨ (s.slot i).rel.overlap = .released
    let gone : Prop := (s.sect e).held = .clear ∧ seen e ∧ beyond ∧
      (r.cls = .entry → k = 0 → (s.slot i).rel.clearedBehind = true)
    let ofSection (j : Nat) : Bool := match r.flank[j]? with
      | some q => r.points.any (fun x => x.point == q.guarded) && s.containing q.guarded == e
      | none => false
    let js := (List.range (s.slot i).requirements.length).filter ofSection
    let freed (j : Nat) : Prop := ∀ q, t.requirement i j = some q → q.state = .released
    (((s.slot i).rel.overlap = .held → ∀ d, r.path.getLast? = some d → ¬ seen d) →
      (¬ gone → t = s) ∧
      (gone → (∀ j ∈ js, freed j) ∧ (s.asksAbroad i →
        (∀ j ∈ js, ∀ l q, s.requirement i j = some q → s.askLink i j = some l → q.deferred = false →
          i * 16 + j ∈ (t.link l).retiredAsks) ∧
        ((t.slot i).state = .passing → (t.slot i).rel.released = k + 1 → s.givesUp t i js ∧
          ∀ l, s.sends t l (s.releases i l js)))) ∧
      (gone → (s.lock e = none ∨ (∃ l, s.lock e = some l ∧ l.holder = i) → t.lock e = none) ∧
        (∀ q ∈ r.points, s.containing q.point = e → ∀ l, s.lock q.point = some l → l.holder = i → t.lock q.point = none)) ∧
      (gone → k + 1 < r.path.length → (t.slot i).state = .free ∨ (t.slot i).state = .passing ∧ k + 1 ≤ (t.slot i).rel.released) ∧
      (gone → k + 1 = r.path.length → t.slot i = { lastOutcome := .released .passed } ∧
        (s.isBoundary r.exit = true → (t.boundary r.exit).occupiedBeyond = false ∧
          (∀ o, (s.boundary r.exit).outgoing = some o → o.slot = i → (t.boundary r.exit).outgoing = none) ∧
          ∀ l, s.linkOf r.exit = some l → (∀ j, s.askLink i j ≠ some l) →
            s.sends t l [.clearedBehind (s.remoteOf r.exit)]))) ∧
    (∀ o d, (s.slot i).rel.overlap = .held → r.overlap = some o → r.path.getLast? = some d → s.isBoundary r.exit = false →
      seen d →
      (o.release ≠ 0 → (t.slot i).state = .passing ∧ (t.slot i).rel.overlap = .timing ∧
        (t.slot i).rel.overlapTimer = .running (s.time.plus (o.release * 100))) ∧
      (o.release = 0 → ((t.slot i).state = .free ∨ (t.slot i).rel.overlap = .released) ∧
        (∀ (j : Nat) (q : FlankReq), r.flank[j]? = some q → (∀ x ∈ r.points, x.point ≠ q.guarded) → freed j) ∧
        ∀ x l, s.lock x = some l → l.holder = i → x ∈ o.sections ++ o.points.map PointReq.point → t.lock x = none)) ∧
    (∀ m, m ≠ i → t.slot m = s.slot m) ∧ t.field.points = s.field.points ∧ t.field.supplies = s.field.supplies ∧
    (∀ d, (t.sect d).held = (s.sect d).held) ∧ t.time = s.time ∧ t.cfg = s.cfg ∧ t.host = s.host

/-! ### Boundary links (07) -/

/-- R120: a telegram handed to a port that is neither UP nor SUSPECT is discarded. In UP and SUSPECT it begins to leave at once when
nothing is leaving or waiting, and otherwise joins the tail of the queue; with 64 waiting the link enters DOWN instead. When a telegram has
left, the head of the queue begins, with the transmit sequence written into it, and the sequence advances. R121, R148: the send timer, when
due, starts again with the link's period; in PROVING the next PROBE is placed, and in UP and SUSPECT a STATE with the mode, the asks sent
or HELD, the given claims and one entry for each boundary element of the link; with 64 telegrams waiting the link enters DOWN. That the 64
places count the waiting telegrams and not the one that is leaving is the model's choice (log 47), and so is it that a send timer which is
not due changes nothing (log 14). -/
def Obligations.TelegramsAreSent : Prop :=
  (∀ (s : State) (l : Nat),
    let k := s.link l
    (∀ t : Telegram,
      (¬ s.passesOn l → s.hand l t = s) ∧
      (s.passesOn l → k.sending = none → k.queue = [] →
        s.hand l t = s.putLink l { k with sending := some (k.txSeq, t), txSeq := k.txSeq + 1 }) ∧
      (s.passesOn l → k.sending ≠ none → k.queue.length < 64 → s.hand l t = s.putLink l { k with queue := k.queue ++ [t] }) ∧
      (s.passesOn l → 64 ≤ k.queue.length → s.hand l t = s.goDown l)) ∧
    (k.queue = [] → exec (.telegramTransmitted l) s = .next (s.putLink l { k with sending := none })) ∧
    ∀ t rest, k.queue = t :: rest →
      exec (.telegramTransmitted l) s = .next (s.putLink l { k with sending := some (k.txSeq, t), queue := rest, txSeq := k.txSeq + 1 })) ∧
  ∀ (s : State) (l : Nat),
    let k := { s.link l with sendTimer := .running (s.time.plus (s.linkParams l).period) }
    (¬ s.due (s.link l).sendTimer → exec (.sendTimerExpiry l) s = .next s) ∧
    (s.due (s.link l).sendTimer → k.queue.length < 64 →
      (k.state = .proving → exec (.sendTimerExpiry l) s = settled (s.putLink l
        { k.append (.probe k.outProbe (probePattern k.generator)) with
          outProbe := k.outProbe + 1, generator := if k.outProbe = 255 then probeLoad else probeSteps 128 k.generator })) ∧
      (s.passesOn l → ∃ b : StateBody, exec (.sendTimerExpiry l) s = settled (s.putLink l (k.append (.state b))) ∧ s.shownBy l b)) ∧
    (s.due (s.link l).sendTimer → 64 ≤ k.queue.length → k.state = .proving ∨ s.passesOn l →
      exec (.sendTimerExpiry l) s = settled ((s.putLink l k).goDown l))

/-- R128: an entry to DOWN ends in PROVING. The queue is emptied, PROBE 0 is placed, the runs and the probe numbers start again, the send
timer and the LOS timer run and the miss watch is stopped; counters, given claims and retired references are kept. LINK_DOWN has its cause,
the link is marked, and the entry is to be taken by the HC and the FE. R123, R127, R130: what the host and the LOS timer do to a link.
LINK_RESET and CLEAR_COUNTERS in service check the body, the link, that it is not DISABLED, and LINK_RESET at last its authority;
LINK_RESET then takes the link to DOWN, and CLEAR_COUNTERS sets its seven counters to 0 and marks it. The LOS timer, when due in PROVING,
UP or SUSPECT, takes the link to DOWN; that one which is not due changes nothing is the model's choice (log 14). -/
def Obligations.LinksGoDown : Prop :=
  (∀ (s : State) (l : Nat),
    let t := s.goDown l
    let k := s.link l
    t.link l = { k with
      state := .proving, queue := if k.sending = none then [] else [.probe 0 (probePattern probeLoad)],
      sending := if k.sending = none then some (k.txSeq, .probe 0 (probePattern probeLoad)) else k.sending,
      txSeq := if k.sending = none then k.txSeq + 1 else k.txSeq,
      lastSeq := none, cleanRun := 0, goodRun := 0, badRun := 0, outProbe := 1, generator := probeSteps 128 probeLoad,
      expProbe := 0, checker := probeLoad, missWatch := .stopped, sendTimer := .running (s.time.plus (s.linkParams l).period),
      losTimer := .running (s.time.plus (s.linkParams l).los), freshUp := false, neighbourMode := none } ∧
    (∀ m, m ≠ l → t.link m = s.link m) ∧
    (∀ c, c ∈ t.su.causes ↔ c ∈ s.su.causes ∨ c = (.linkDown, .link l)) ∧ .linkDown l ∈ t.work ∧
    (s.su.mode.inService = true → .link l ∈ t.reports) ∧
    t.field = s.field ∧ t.locking = s.locking ∧ t.claims = s.claims ∧ t.boundaries = s.boundaries ∧ t.time = s.time ∧
    t.cfg = s.cfg ∧ t.host = s.host ∧ t.pending = s.pending) ∧
  (∀ (s : State) (rq : Request), s.host.replies.length < 16 → s.su.mode.inService = true →
    let both (reason : Nat) (data : List Byte) : Prop := exec (.linkReset rq) s = handled 0x38 rq s .refused reason data ∧
      exec (.clearCounters rq) s = handled 0x39 rq s .refused reason data
    (rq.body.length ≠ 1 → both 5 [1, 0, 0]) ∧
    ∀ a : Byte, rq.body = [a] → (3 < a → both 5 [0, 0, 0]) ∧
      (a ≤ 3 →
        let l := a.toNat
        ((s.link l).state = .disabled → both 4 []) ∧
        ((s.link l).state ≠ .disabled →
          (rq.authority = .routine → exec (.linkReset rq) s = handled 0x38 rq s .refused 14 []) ∧
          (rq.authority = .auxiliary → exec (.linkReset rq) s = handled 0x38 rq (s.goDown l) .done 0 []) ∧
          ∃ u : State, exec (.clearCounters rq) s = handled 0x39 rq u .done 0 [] ∧
            u = { s.putLink l { s.link l with counters := ⟨0, 0, 0, 0, 0, 0, 0⟩ } with reports := u.reports } ∧
            .link l ∈ u.reports))) ∧
  ∀ (s : State) (l : Nat), (¬ s.due (s.link l).losTimer → exec (.losTimerExpiry l) s = .next s) ∧
    (s.due (s.link l).losTimer → (s.link l).state = .proving ∨ s.passesOn l → exec (.losTimerExpiry l) s = settled (s.goDown l))

/-- R122, R125, R126: a bad telegram raises its counter. Unless it is a byte error while hunting, it ends the clean run in PROVING, takes
UP to SUSPECT, and in SUSPECT lengthens the bad run, which at the out-lock count takes the link to DOWN. An expiry of the miss watch starts
it again and acts in the same way. A telegram of unknown kind is counted and its sequence recorded. A DISABLED port takes no notice. That
an expiry of the miss watch which is not due changes nothing is the model's choice (log 14). -/
def Obligations.LinkHealth : Prop :=
  ∀ (s : State) (l : Nat),
    let worse (k : Link) (c : Instr) : Prop :=
      (k.state = .up → ∃ u : State, exec c s = settled u ∧ (s.su.mode.inService = true → .link l ∈ u.reports) ∧
        u = { s.putLink l { k with state := .suspect, badRun := 1, goodRun := 0 } with reports := u.reports }) ∧
      (k.state = .suspect → k.badRun + 1 < (s.linkParams l).outLock →
        exec c s = settled (s.putLink l { k with badRun := k.badRun + 1, goodRun := 0 })) ∧
      (k.state = .suspect → (s.linkParams l).outLock ≤ k.badRun + 1 → exec c s = settled ((s.putLink l k).goDown l))
    (∀ e : ReceiveError,
      let n := (s.link l).counters
      let k := { s.link l with counters := match e with
        | .crc => { n with crc := bump n.crc }
        | .length => { n with length := bump n.length }
        | .byte | .hunting => { n with byte := bump n.byte } }
      (k.state = .disabled → exec (.badTelegram l e) s = settled s) ∧
      (k.state ≠ .disabled → e = .hunting → exec (.badTelegram l e) s = settled (s.putLink l k)) ∧
      (e ≠ .hunting →
        (k.state = .proving → exec (.badTelegram l e) s = settled (s.putLink l { k with cleanRun := 0 })) ∧
        worse k (.badTelegram l e))) ∧
    (¬ s.due (s.link l).missWatch → exec (.missWatchExpiry l) s = .next s) ∧
    (s.due (s.link l).missWatch → worse { s.link l with
      missWatch := .running (s.time.plus ((s.linkParams l).period + (s.linkParams l).period / 2)) } (.missWatchExpiry l)) ∧
    ∀ seq : Byte,
      exec (.unknownKindTelegram l seq) s = .next (if (s.link l).state = .disabled then s else s.putLink l { s.link l with
        counters := { (s.link l).counters with unknown := bump (s.link l).counters.unknown }, lastSeq := some seq })

/-- R122, R123, R125 to R127, R129: a good telegram other than PROBE. Each is counted, a sequence gap too, and starts the LOS timer again.
In PROVING it is not passed on: a STATE lengthens the clean run, which at the in-lock count brings the link to UP, where it places a STATE
at once (R121), and one of another kind ends the run at a gap. In UP it starts the miss watch again and is passed on, and in SUSPECT it
clears the bad run, and the second in a row brings the link to UP, with no good telegram taken since. A DISABLED port takes no notice. -/
def Obligations.GoodTelegrams : Prop :=
  ∀ (s : State) (l : Nat) (seq : Byte),
    let k0 := s.link l
    let gap : Prop := ∃ x, k0.lastSeq = some x ∧ seq ≠ x + 1
    ∃ k : Link, k = { k0 with counters := k.counters, lastSeq := some seq,
                              losTimer := .running (s.time.plus (s.linkParams l).los) } ∧
      k.counters = { k0.counters with good := bump k0.counters.good, gaps := k.counters.gaps } ∧
      (gap → k.counters.gaps = bump k0.counters.gaps) ∧ (¬ gap → k.counters.gaps = k0.counters.gaps) ∧
      (∀ (b : StateBody), b.ok = true →
        (k0.state = .disabled → exec (.state l seq b) s = settled s) ∧
        (k0.state = .proving → ∀ run, (gap → run = 1) → (¬ gap → run = k0.cleanRun + 1) →
          (run < (s.linkParams l).inLock → exec (.state l seq b) s = settled (s.putLink l { k with cleanRun := run })) ∧
          ((s.linkParams l).inLock ≤ run →
            exec (.state l seq b) s = settled ((s.putLink l { k with cleanRun := run }).enterUp l))) ∧
        (s.passesOn l → exec (.state l seq b) s = settled ((s.heardFrom l seq).takeState l b))) ∧
      (∀ t : Telegram, (∀ n p, t ≠ .probe n p) → (∀ b, t ≠ .state b) →
        (k0.state = .disabled → exec (t.command l seq) s = settled s) ∧
        (k0.state = .proving → k0.cleanRun < (s.linkParams l).inLock →
          (gap → exec (t.command l seq) s = settled (s.putLink l { k with cleanRun := 0 })) ∧
          (¬ gap → exec (t.command l seq) s = settled (s.putLink l k)))) ∧
      (s.work = [] → k0.state = .up → s.heardFrom l seq = s.putLink l { k with
        missWatch := .running (s.time.plus ((s.linkParams l).period + (s.linkParams l).period / 2)), freshUp := false }) ∧
      (s.work = [] → k0.state = .suspect → k0.goodRun ≠ 1 → s.heardFrom l seq = s.putLink l { k with
        missWatch := .running (s.time.plus ((s.linkParams l).period + (s.linkParams l).period / 2)), freshUp := false,
        goodRun := k0.goodRun + 1, badRun := 0 }) ∧
      (k0.state = .suspect → k0.goodRun = 1 → (s.receive l seq .other).2 = true ∧ .linkUp l ∈ (s.receive l seq .other).1.work ∧
        (s.receive l seq .other).1.link l = { k with
          missWatch := .running (s.time.plus ((s.linkParams l).period + (s.linkParams l).period / 2)), freshUp := true,
          state := .up, goodRun := 0, badRun := 0 }) ∧
      let up := s.enterUp l
      ((s.link l).queue.length < 64 →
        (up.link l).state = .up ∧ (up.link l).cleanRun = 0 ∧ (up.link l).goodRun = 0 ∧ (up.link l).badRun = 0 ∧
        (up.link l).missWatch = .running (s.time.plus ((s.linkParams l).period + (s.linkParams l).period / 2)) ∧
        (up.link l).sendTimer = .running (s.time.plus (s.linkParams l).period) ∧ (up.link l).freshUp = true ∧
        (.linkDown, .link l) ∉ up.su.causes ∧ .linkUp l ∈ up.work ∧ (∀ m, m ≠ l → up.link m = s.link m) ∧
        ∃ b : StateBody, s.shownBy l b ∧
          ((s.link l).sending = none → (s.link l).queue = [] →
            (up.link l).sending = some ((s.link l).txSeq, .state b) ∧ (up.link l).queue = []) ∧
          ((s.link l).sending ≠ none → (up.link l).sending = (s.link l).sending ∧
            (up.link l).queue = (s.link l).queue ++ [.state b]))

/-- R124: the probe generator. At each step the bit in position 0 is shifted out, the register moves one place towards position 0, and the
exclusive OR of the bits in positions 0, 2, 3 and 5 enters position 15; eight steps give a byte, the first bit its most significant. The
pattern of probe n is the 16 bytes that follow 128 n steps from 0xACE1. A link that enters PROVING loads 0xACE1 with probe number 0, each
PROBE placed takes the pattern of its number and advances the generator 128 steps, and from 255 the number returns to 0 with the generator
loaded again. The first byte of probe 0 is 0x87, and it leaves the register at 0x22AC. -/
def Obligations.ProbePatterns : Prop :=
  (∀ r : BitVec 16, (∀ i, i < 15 → (probeStep r).getLsbD i = r.getLsbD (i + 1)) ∧
    (probeStep r).getLsbD 15 = ((r.getLsbD 0 ^^ r.getLsbD 2) ^^ (r.getLsbD 3 ^^ r.getLsbD 5))) ∧
  (∀ (r : BitVec 16), (probePattern r).length = 16 ∧ ∀ m, m < 16 → ∀ i, i < 8 →
    ((probePattern r).getD m 0).getLsbD (7 - i) = (probeSteps (8 * m + i) r).getLsbD 0) ∧
  (∀ n, probeSteps 0 (probeStart n) = probeStart n ∧ probeStart n = probeSteps (128 * n) 0xACE1) ∧
  (∀ (now : Time) (p : LinkParams) (k : Link), k.sending = none → k.queue = [] →
    (k.proving now p).sending = some (k.txSeq, .probe 0 (probePattern 0xACE1)) ∧ (k.proving now p).outProbe = 1 ∧
    (k.proving now p).generator = probeStart 1) ∧
  (∀ k : Link, k.generator = probeStart k.outProbe.toNat →
    k.appendProbe.outProbe = k.outProbe + 1 ∧ k.appendProbe.generator = probeStart (k.outProbe + 1).toNat ∧
    (k.sending = none → k.queue = [] →
      k.appendProbe.sending = some (k.txSeq, .probe k.outProbe (probePattern (probeStart k.outProbe.toNat))))) ∧
  (probePattern 0xACE1).head? = some 0x87 ∧ probeSteps 8 0xACE1 = 0x22AC

/-- R123, R125, R126: a good PROBE. In PROVING its bytes are compared with the pattern of its number; those that differ are counted and end
the clean run, and with none differing the run grows by one, or is 1 after a gap, and at the in-lock count the link enters UP. In UP the
first good telegram since the one that brought the link to UP is discarded when it is a PROBE; any other PROBE in UP or SUSPECT takes the
link to DOWN. A PROBE whose pattern is not 16 bytes is a length error. The premise on the checker says where the expected number puts it.
-/
def Obligations.ProbesProveTheLink : Prop :=
  ∀ (s : State) (l : Nat) (seq number : Byte) (pattern : List Byte),
    let k := s.link l
    let gap : Bool := k.lastSeq.any (fun x => seq != x + 1)
    let k0 := { k with
      counters := { k.counters with good := bump k.counters.good, gaps := if gap then bump k.counters.gaps else k.counters.gaps }
      lastSeq := some seq, losTimer := .running (s.time.plus (s.linkParams l).los) }
    let wrong := ((pattern.zip (probePattern (probeStart number.toNat))).filter (fun x => x.1 != x.2)).length
    (pattern.length ≠ 16 → exec (.probe l seq number pattern) s = exec (.badTelegram l .length) s) ∧
    (pattern.length = 16 → k.state = .disabled → exec (.probe l seq number pattern) s = settled s) ∧
    (pattern.length = 16 → k.state = .proving → k.checker = probeStart k.expProbe.toNat →
      let k' := { k0 with
        counters := { k0.counters with mismatch := bumpBy k.counters.mismatch wrong }
        expProbe := number + 1, checker := probeStart (number + 1).toNat
        cleanRun := if wrong = 0 then (if gap then 1 else k.cleanRun + 1) else 0 }
      (k'.cleanRun < (s.linkParams l).inLock → exec (.probe l seq number pattern) s = settled (s.putLink l k')) ∧
      ((s.linkParams l).inLock ≤ k'.cleanRun → exec (.probe l seq number pattern) s = settled ((s.putLink l k').enterUp l))) ∧
    (pattern.length = 16 → k.state = .up → k.freshUp = true → exec (.probe l seq number pattern) s = settled (s.putLink l { k0 with
      freshUp := false, missWatch := .running (s.time.plus ((s.linkParams l).period + (s.linkParams l).period / 2)) })) ∧
    (pattern.length = 16 → k.state = .up ∧ k.freshUp = false ∨ k.state = .suspect →
      exec (.probe l seq number pattern) s = settled ((s.putLink l k0).goDown l))

/-! ### Handover (08) and flank over the links (04) -/

/-- R138 to R140, R32: offers at the entry side. An OFFER that a link passes on is refused by the first check that fails: the mode, the
element and its role, what the element holds, its direction. A part that stores no ENTRY route refuses it then (R32), with a reason that
the spec leaves open and the model leaves free (log 16). One that passes becomes the element's incoming offer, and is accepted at once when
the entry slot is OPEN. A REFUSE_OFFER in service refuses one that is not accepted, with reason HOST, and removes it. -/
def Obligations.OffersAreReceived : Prop :=
  (∀ (s : State) (l : Nat) (seq : Byte) (e r cls : Nat), s.passesOn l →
    let p := s.heardFrom l seq
    let refusedBy (reason : Nat) : Prop := exec (.offer l seq e r cls) s = settled (p.hand l (.refuse r reason))
    let known : Prop := ∃ remote role adjacent, p.defn e = some (.boundary l remote role adjacent) ∧ role ≠ .exit
    let busy : Prop := (p.boundary e).incoming ≠ none ∨ (p.boundary e).outgoing ≠ none ∨ (p.boundary e).awaited ≠ none
    let inward : Prop := p.roleOf e = some .entry ∨ (p.boundary e).direction = .inbound
    if p.su.mode ≠ .normal then refusedBy 1
    else (¬ known → refusedBy 2) ∧ (known → busy → refusedBy 3) ∧ (known → ¬ busy → ¬ inward → refusedBy 4) ∧
      (known → ¬ busy → inward → (∀ x ∈ p.cfg.routes.entries, x.2.cls ≠ .entry) → ∃ reason, refusedBy reason) ∧
      (known → ¬ busy → inward → (∃ x ∈ p.cfg.routes.entries, x.2.cls = .entry) →
        let ready : Prop := ∃ i, (p.boundary e).entrySlot = some i ∧ (p.slot i).state = .opened
        ∃ u : State, exec (.offer l seq e r cls) s = settled u ∧
          (∃ a, (a = true ↔ ready) ∧ u.boundary e = { p.boundary e with incoming := some ⟨r, cls, a⟩ }) ∧
          (ready → ∀ i, (p.boundary e).entrySlot = some i → u.slot i = { p.slot i with hasBeenOpened := true }) ∧
          (ready → p.passesOn l → (p.link l).sending = none → (p.link l).queue = [] →
            (u.link l).sending = some ((p.link l).txSeq, .accept r)) ∧
          (¬ ready → u.links = p.links ∧ u.locking = p.locking) ∧
          (∀ x, x ≠ e → u.boundary x = p.boundary x) ∧ u.locking.locks = p.locking.locks ∧
          u.locking.permissions = p.locking.permissions ∧ u.claims = p.claims ∧ u.field = p.field ∧ u.time = p.time ∧
          u.cfg = p.cfg ∧ u.host = p.host)) ∧
  ∀ (s : State) (rq : Request), s.host.replies.length < 16 → s.su.mode.inService = true →
    let refusedBy (reason : Nat) (data : List Byte) : Prop := exec (.refuseOffer rq) s = handled 0x31 rq s .refused reason data
    (rq.body.length ≠ 2 → refusedBy 5 [1, 0, 0]) ∧
    ∀ a b : Byte, rq.body = [a, b] →
      let e := num2 a b
      (399 < e → refusedBy 5 [0, 0, 0]) ∧
      (e ≤ 399 → s.isBoundary e = false ∨ (s.boundary e).incoming = none → refusedBy 4 []) ∧
      ∀ o, e ≤ 399 → s.isBoundary e = true → (s.boundary e).incoming = some o →
        (o.accepted = true → refusedBy 6 []) ∧
        (o.accepted = false → ∃ u : State, exec (.refuseOffer rq) s = handled 0x31 rq u .done 0 [] ∧
          u.boundary e = { s.boundary e with incoming := none } ∧ (∀ x, x ≠ e → u.boundary x = s.boundary x) ∧
          (∀ l, s.linkOf e = some l → s.passesOn l → (s.link l).sending = none → (s.link l).queue = [] →
            (u.link l).sending = some ((s.link l).txSeq, .refuse o.reference 5)) ∧
          u.locking = s.locking ∧ u.claims = s.claims ∧ u.field = s.field ∧ u.time = s.time ∧ u.cfg = s.cfg ∧ u.host = s.host ∧
          u.pending = s.pending)

/-- R135: the answers to an offer. An ACCEPT or a REFUSE that a link passes on and that finds no sent offer of its reference on the link
draws WITHDRAW; one that finds an ACCEPTED offer changes nothing. An ACCEPT of an OFFERED one makes it ACCEPTED and takes the slot's
ACCEPTANCE need; a REFUSE drops the PENDING slot with REFUSED and shows the neighbour's reason. The answer timer, when due, drops the
PENDING slot with OFFER_TIMEOUT; that one which is not due, or finds no offer, changes nothing is the model's choice (log 14). -/
def Obligations.OffersAreAnswered : Prop :=
  (∀ (s : State) (l : Nat) (seq : Byte) (r n : Nat), s.passesOn l →
    let p := s.heardFrom l seq
    (p.offeredOn l r = none → exec (.accept l seq r) s = settled (p.hand l (.withdraw r)) ∧
      exec (.refuse l seq r n) s = settled (p.hand l (.withdraw r))) ∧
    (∀ e o, p.offeredOn l r = some (e, o) → e ∈ p.boundariesOn l ∧ (p.boundary e).outgoing = some o ∧ o.slot = r ∧ o.deferred = false ∧
      (o.accepted = true → exec (.accept l seq r) s = settled p ∧ exec (.refuse l seq r n) s = settled p) ∧
      (o.accepted = false →
        (∃ u : State, exec (.accept l seq r) s = settled u ∧
          u.boundary e = { p.boundary e with outgoing := some { o with accepted := true, answer := .stopped } } ∧
          u.slot r = { p.slot r with needs := { (p.slot r).needs with acceptance := false } } ∧
          (∀ x, x ≠ e → u.boundary x = p.boundary x) ∧ (∀ k, k ≠ r → u.slot k = p.slot k) ∧
          u.locking.locks = p.locking.locks ∧ u.locking.permissions = p.locking.permissions ∧ u.claims = p.claims ∧
          u.links = p.links ∧ u.field = p.field ∧ u.su = p.su ∧ u.time = p.time ∧ u.cfg = p.cfg ∧ u.host = p.host) ∧
        ∃ u : State, exec (.refuse l seq r n) s = settled u ∧ (u.boundary e).outgoing = none ∧
          ((p.slot r).state = .pending → u.slot r = { lastOutcome := .dropped .refused, neighbourReason := some n }) ∧ (∀ k, k ≠ r → u.slot k = p.slot k) ∧
          (p.exitBoundary r = some e → (u.link l).retiredOffers = (p.link l).retiredOffers) ∧ u.time = p.time ∧ u.cfg = p.cfg ∧ u.host = p.host))) ∧
  ∀ (s : State) (e : Nat),
    ((s.boundary e).outgoing = none ∨ (∃ o, (s.boundary e).outgoing = some o ∧ ¬ s.due o.answer) →
      exec (.offerAnswerExpiry e) s = .next s) ∧
    ∀ o, (s.boundary e).outgoing = some o → s.due o.answer → (s.slot o.slot).state = .pending →
      ∃ u : State, exec (.offerAnswerExpiry e) s = settled u ∧ u = s.vacate o.slot (.dropped .offerTimeout) ∧
      u.slot o.slot = { lastOutcome := .dropped .offerTimeout } ∧ (∀ k, k ≠ o.slot → u.slot k = s.slot k) ∧
      (s.exitBoundary o.slot = some e → (u.boundary e).outgoing = none) ∧
      (∀ r x l, s.routeOf o.slot = some r → x ∈ r.lockOrder → s.lock x = some l → l.holder = o.slot → u.lock x = none) ∧
      u.time = s.time ∧ u.cfg = s.cfg ∧ u.host = s.host

/-- R137, R140, R141: a WITHDRAW that a link passes on removes the incoming offers of its reference on the link, one above 31 finding none
(R181, log 38), and takes back the acceptance of its reference (that it acts on both sides is the model's choice, log 19): a PENDING slot
is dropped and a LOCKED or OPEN one that no train can be near is released, each answered with RELEASED once it is gone (the order is the
model's choice, log 39); one that has been opened with its approach occupied is approach locked and owes a RELEASED; a PASSING one is left.
A RELEASED releases the slot that waits for its reference; that it is one slot alone where two elements wait for one reference is the
model's choice (log 51). R142, R143: the train across the boundary. An OCCUPIED_BEYOND for an element of
the link with a PASSING slot that exits there sets occupied_beyond, unless the slot's release is thereby completed, which clears it; with
no such slot, or no such element, it is ignored. A CLEARED_BEHIND sets cleared_behind of the PASSING entry slot of the element, or
completes its release; with no such slot it is ignored. -/
def Obligations.OffersEnd : Prop :=
  (∀ (s : State) (l : Nat) (seq : Byte) (r : Nat), s.passesOn l →
    let p := s.heardFrom l seq
    (∃ u : State, exec (.withdraw l seq r) s = settled u ∧
      (∀ e o, e ∈ p.boundariesOn l → (p.boundary e).incoming = some o → o.reference = r → r ≤ 31 → (u.boundary e).incoming = none) ∧
      (∀ e, e ∉ p.boundariesOn l ∨ 31 < r ∨ (∀ o, (p.boundary e).incoming = some o → o.reference ≠ r) →
        (u.boundary e).incoming = (p.boundary e).incoming) ∧
      (∀ k, k ≠ r → u.slot k = p.slot k) ∧ u.time = p.time ∧ u.cfg = p.cfg ∧ u.host = p.host ∧
      ((∀ e o, p.offeredOn l r = some (e, o) → o.accepted = false) → u.locking = p.locking ∧ u.links = p.links ∧
        ∀ e, (u.boundary e).outgoing = (p.boundary e).outgoing) ∧
      ∀ e o d, p.offeredOn l r = some (e, o) → o.accepted = true → p.routeOf r = some d →
        let near : Prop := (p.slot r).hasBeenOpened = true ∧ (d.approach = [] ∨ ∃ x ∈ d.approach, (p.sect x).held ≠ .clear)
        ((p.slot r).state ∈ [SlotState.pending, .locked, .opened, .approachLocked] → (u.boundary e).outgoing = none) ∧
        ((p.slot r).state = .pending → u.slot r = { lastOutcome := .dropped .cancelled }) ∧
        (let answered : Prop := (p.slot r).state = .pending ∨ ((p.slot r).state = .locked ∨ (p.slot r).state = .opened) ∧ ¬ near
         answered → p.exitBoundary r = some e → (∀ j, p.askLink r j ≠ some l) → p.sends u l [.released r]) ∧
        ((p.slot r).state = .locked ∨ (p.slot r).state = .opened →
          (¬ near → u.slot r = { lastOutcome := .released .cancelled }) ∧
          (near → (u.slot r).state = .approachLocked ∧ (u.slot r).rel = p.approachRecord d (p.slot r).rel ∧
            (u.boundary e).releasedPending = some r ∧ u.locking.locks = p.locking.locks ∧ u.claims = p.claims)) ∧
        ((p.slot r).state = .approachLocked → u.slot r = p.slot r ∧ (u.boundary e).releasedPending = some r) ∧
        ((p.slot r).state = .passing → u.slot r = p.slot r ∧ (u.boundary e).outgoing = (p.boundary e).outgoing)) ∧
    ((∀ e i, e ∈ p.boundariesOn l → (p.boundary e).entrySlot = some i → (p.boundary e).awaited = some r →
        (p.slot i).state ≠ .awaitReleased) → exec (.released l seq r) s = settled p) ∧
    ((∃ e i, e ∈ p.boundariesOn l ∧ (p.boundary e).entrySlot = some i ∧ (p.boundary e).awaited = some r ∧
        (p.slot i).state = .awaitReleased) →
      ∃ (u : State) (e i : Nat), exec (.released l seq r) s = settled u ∧ e ∈ p.boundariesOn l ∧ (p.boundary e).entrySlot = some i ∧
        (p.boundary e).awaited = some r ∧ (p.slot i).state = .awaitReleased ∧
        u.slot i = { lastOutcome := .released .cancelled } ∧ (∀ k, k ≠ i → u.slot k = p.slot k) ∧
        (∀ d, p.routeOf i = some d → d.cls = .entry → d.entry = e →
          (u.boundary e).entrySlot = none ∧ (u.boundary e).awaited = none) ∧
        u.time = p.time ∧ u.cfg = p.cfg ∧ u.host = p.host)) ∧
  ∀ (s : State) (l : Nat) (seq : Byte) (e : Nat), s.passesOn l →
    let p := s.heardFrom l seq
    let passing : Prop := ∃ i, i < 32 ∧ (p.slot i).state = .passing ∧ p.exitBoundary i = some e
    let entering (i : Nat) : Prop := (p.boundary e).entrySlot = some i ∧ (p.slot i).state = .passing
    (p.linkOf e ≠ some l ∨ ¬ passing → exec (.occupiedBeyond l seq e) s = settled p) ∧
    (p.linkOf e = some l → passing → ∃ u : State, exec (.occupiedBeyond l seq e) s = settled u ∧
      ((u.boundary e).occupiedBeyond = true ∨ ∃ i, i < 32 ∧ (p.slot i).state = .passing ∧ p.exitBoundary i = some e ∧
        u.slot i = { lastOutcome := .released .passed }) ∧
      (∀ i, (p.slot i).state ≠ .passing ∨ p.exitBoundary i ≠ some e → u.slot i = p.slot i) ∧
      (∀ x, (u.sect x).held = (p.sect x).held) ∧ u.time = p.time ∧ u.cfg = p.cfg ∧ u.host = p.host) ∧
    (p.linkOf e ≠ some l ∨ (∀ i, ¬ entering i) → exec (.clearedBehind l seq e) s = settled p) ∧
    (∀ i, p.linkOf e = some l → entering i → ∃ u : State, exec (.clearedBehind l seq e) s = settled u ∧
      ((u.slot i).state = .passing ∧ (u.slot i).rel.clearedBehind = true ∨ u.slot i = { lastOutcome := .released .passed }) ∧
      (∀ k, k ≠ i → u.slot k = p.slot k) ∧ (∀ x, (u.sect x).held = (p.sect x).held) ∧ u.time = p.time ∧ u.cfg = p.cfg ∧
      u.host = p.host)

/-- R144 to R146: direction. An ASK_DIRECTION is refused by the first check that fails, and otherwise sends DIR_ASK, turns the element to
ASKING and starts its timer. A DIR_ASK for an element that is OUTBOUND with nothing of this side using the boundary turns it INBOUND and
draws DIR_GIVE; for any other it draws DIR_DENY, which for an element that is not on the link names a free value (log 30). A DIR_GIVE turns
an ASKING element OUTBOUND; a DIR_DENY, or its timer, turns it INBOUND. What is not ASKING is left; that a timer which is not due changes
nothing is the model's choice (log 14). -/
def Obligations.DirectionIsAgreed : Prop :=
  (∀ (s : State) (rq : Request), s.host.replies.length < 16 → s.su.mode.inService = true → s.su.mode ≠ .safeHold →
    let refusedBy (reason : Nat) (data : List Byte) : Prop := exec (.askDirection rq) s = handled 0x30 rq s .refused reason data
    (rq.body.length ≠ 2 → refusedBy 5 [1, 0, 0]) ∧
    ∀ a b : Byte, rq.body = [a, b] →
      let e := num2 a b
      let held : Prop := (s.boundary e).incoming ≠ none ∨ (s.boundary e).entrySlot ≠ none ∨ (s.boundary e).awaited ≠ none
      (399 < e → refusedBy 5 [0, 0, 0]) ∧
      (e ≤ 399 → s.roleOf e ≠ some .both → refusedBy 4 []) ∧
      ∀ l, e ≤ 399 → s.roleOf e = some .both → s.linkOf e = some l →
        ((s.boundary e).direction ≠ .inbound → refusedBy 12 []) ∧
        ((s.boundary e).direction = .inbound → held → refusedBy 8 []) ∧
        ((s.boundary e).direction = .inbound → ¬ held → (s.link l).state ≠ .up → refusedBy 13 []) ∧
        ((s.boundary e).direction = .inbound → ¬ held → (s.link l).state = .up →
          ∃ u : State, exec (.askDirection rq) s = handled 0x30 rq u .accepted 0 [] ∧
            u.boundary e = { s.boundary e with direction := .asking,
                                               dirTimer := .running (s.time.plus (s.linkParams l).answer) } ∧
            (∀ x, x ≠ e → u.boundary x = s.boundary x) ∧ u.links = (s.hand l (.dirAsk (s.remoteOf e))).links ∧
            u.locking = s.locking ∧ u.claims = s.claims ∧ u.field = s.field ∧ u.time = s.time ∧ u.cfg = s.cfg ∧ u.host = s.host)) ∧
  (∀ (s : State) (l : Nat) (seq : Byte) (e : Nat), s.passesOn l →
    let p := s.heardFrom l seq
    let free : Prop := p.roleOf e = some .both ∧ (p.boundary e).direction = .outbound ∧ (p.boundary e).outgoing = none ∧
      (p.boundary e).entrySlot = none ∧ p.lock (p.adjacentOf e) = none ∧ (p.sect (p.adjacentOf e)).held = .clear
    let asking : Prop := p.linkOf e = some l ∧ p.roleOf e = some .both ∧ (p.boundary e).direction = .asking
    let takes (c : Instr) (d : Direction) : Prop := exec c s = settled (p.putBoundary e { p.boundary e with
      direction := d, dirTimer := .stopped })
    (p.linkOf e = some l → ¬ free → exec (.dirAsk l seq e) s = settled (p.hand l (.dirDeny (p.remoteOf e)))) ∧
    (p.linkOf e ≠ some l → ∃ x, exec (.dirAsk l seq e) s = settled (p.hand l (.dirDeny x))) ∧
    (p.linkOf e = some l → free → exec (.dirAsk l seq e) s = settled
      ((p.putBoundary e { p.boundary e with direction := .inbound }).hand l (.dirGive (p.remoteOf e)))) ∧
    (asking → takes (.dirGive l seq e) .outbound ∧ takes (.dirDeny l seq e) .inbound) ∧
    (¬ asking → exec (.dirGive l seq e) s = settled p ∧ exec (.dirDeny l seq e) s = settled p)) ∧
  ∀ (s : State) (e : Nat),
    (¬ s.due (s.boundary e).dirTimer → exec (.directionTimerExpiry e) s = .next s) ∧
    (s.due (s.boundary e).dirTimer → s.roleOf e = some .both → (s.boundary e).direction = .asking →
      exec (.directionTimerExpiry e) s = settled (s.putBoundary e { s.boundary e with direction := .inbound, dirTimer := .stopped }))

/-- R79, R80, R82: flank given. A FLANK_ASK that a link passes on is refused in SAFE_HOLD, for an element that is not of the kind its state
needs or is not available in it, and with 16 claims given; otherwise a claim is given: its record joins the table, the element's count
rises, and a point out of the position is ordered to it (R77). A repeat of a given claim adds nothing and draws FLANK_GIVEN again once
given; an ask of a given reference for another element or state has the old claim released and is then judged as new. A FLANK_RELEASE
removes the record of its reference and lowers the count. That SAFE_HOLD is judged before a repeated reference, and that a state code which
names no state is a failed element check, is the model's choice (log 21). -/
def Obligations.FlankIsGiven : Prop :=
  ∀ (s : State) (l : Nat) (seq : Byte) (r e n : Nat), s.passesOn l →
    let p := s.heardFrom l seq
    let given := (p.link l).given
    let old := given.find? (fun x => x.reference == r)
    let refusedIn (v : State) : Prop := exec (.flankAsk l seq r e n) s = settled (v.hand l (.flankRefused r))
    let judgedIn (v : State) : Prop :=
      let canHold (q : Required) : Prop := match q.position with
        | some pos => v.isPoint e = true ∧ v.pointAvailable e pos false = true
        | none => v.isSignal e = true ∧ v.signalAvailable e false = true
      let held := (v.link l).given
      (n = 0 ∨ 3 < n → refusedIn v) ∧
      ∀ q, (n, q) ∈ [(1, Required.normal), (2, .reverse), (3, .stop)] →
        (¬ (canHold q ∧ held.length < 16) → refusedIn v) ∧
        (canHold q → held.length < 16 → ∃ u : State, exec (.flankAsk l seq r e n) s = settled u ∧
          (u.link l).given = held ++ [⟨r, e, q, v.inRequiredState e q, false⟩] ∧ (∀ m, m ≠ l → u.link m = v.link m) ∧
          u.claim e = some ⟨((v.claimState e).getD q), v.claimCount e + 1⟩ ∧ (∀ x, x ≠ e → u.claim x = v.claim x) ∧
          (v.inRequiredState e q = true → v.passesOn l → (v.link l).sending = none → (v.link l).queue = [] →
            (u.link l).sending = some ((v.link l).txSeq, .flankGiven r)) ∧
          ((v.link l).queue.length < 64 →
            (v.inRequiredState e q = true → u.movement = v.movement) ∧
            ∀ pos, q.position = some pos → v.inRequiredState e q = false →
              (v.orderedTo e pos = true → u.movement = v.movement) ∧
              (v.orderedTo e pos = false → (v.throwOf e).state = .atRest → u.orderedTo e pos = true)) ∧
          u.locking = v.locking ∧ u.field = v.field ∧ u.boundaries = v.boundaries ∧ u.time = v.time ∧ u.cfg = v.cfg ∧
          u.host = v.host)
    let repeats (c : GivenClaim) : Prop := c.element = e ∧ (n, c.required) ∈ [(1, Required.normal), (2, .reverse), (3, .stop)]
    (p.su.mode = .safeHold → refusedIn p) ∧
    (p.su.mode ≠ .safeHold →
      (old = none → judgedIn p) ∧
      ∀ c, old = some c →
        (repeats c → exec (.flankAsk l seq r e n) s = settled (if c.given = true then p.hand l (.flankGiven r) else p)) ∧
        (¬ repeats c → judgedIn (p.releaseGiven l r))) ∧
    (old = none → exec (.flankRelease l seq r) s = settled p) ∧
    ∀ c, old = some c → let u := p.releaseGiven l r
      exec (.flankRelease l seq r) s = settled u ∧
      u.link l = { p.link l with given := given.filter (fun x => x.reference != r) } ∧ (∀ m, m ≠ l → u.link m = p.link m) ∧
      u.claimCount c.element = p.claimCount c.element - 1 ∧ (∀ x, x ≠ c.element → u.claim x = p.claim x) ∧
      u.locking = p.locking ∧ u.field = p.field ∧ u.boundaries = p.boundaries ∧ u.su.mode = p.su.mode ∧ u.time = p.time ∧
      u.cfg = p.cfg ∧ u.host = p.host

/-- R73 to R75: the answers to an ask. A FLANK_GIVEN makes the requirement of its reference, ASKED and sent on the link, HELD; one that
finds no requirement ASKED and sent, or HELD, draws FLANK_RELEASE. A FLANK_REFUSED or a FLANK_WITHDRAWN of an ASKED one, and its answer
timer, give the ask up with FLANK_RELEASE, retire its reference, and search on at the following candidate; a FLANK_WITHDRAWN of a HELD one
searches from the first. The search sees the block with the ask given up and the requirement LOST. The first candidate from there on that
can be had is chosen: a local one is HELD with a claim more, a remote one is ASKED, its FLANK_ASK sent unless its reference is retired
(R72). Where none can be had, the requirement is LOST with the cause of
FLANK_LOST, or its PENDING slot is dropped. That an answer timer which is not due changes nothing is the model's choice (log 14). -/
def Obligations.AsksAreAnswered : Prop :=
  (∀ (s : State) (l : Nat) (seq : Byte) (i j : Nat), s.passesOn l → j < 16 →
    let p := s.heardFrom l seq
    let r := i * 16 + j
    let live (q : Requirement) : Prop := i < 32 ∧ p.requirement i j = some q ∧ p.askLink i j = some l ∧ q.deferred = false
    ((∀ q, ¬ live q) → exec (.flankGiven l seq r) s = settled (p.hand l (.flankRelease r)) ∧
      exec (.flankRefused l seq r) s = settled p ∧ exec (.flankWithdrawn l seq r) s = settled p) ∧
    ∀ q, live q →
      (q.state = .held → exec (.flankGiven l seq r) s = settled p ∧ exec (.flankRefused l seq r) s = settled p ∧
        exec (.flankWithdrawn l seq r) s = settled (p.loseRemote i j l)) ∧
      (q.state = .asked →
        (∃ u : State, exec (.flankGiven l seq r) s = settled u ∧
          u.requirement i j = some ⟨.held, q.candidate, false, false, false, .stopped⟩ ∧
          (∀ k, k ≠ i → u.slot k = p.slot k) ∧ (∀ x, x ≠ j → u.requirement i x = p.requirement i x) ∧
          u.locking.locks = p.locking.locks ∧ u.claims = p.claims ∧ u.links = p.links ∧ u.field = p.field ∧ u.time = p.time ∧
          u.cfg = p.cfg ∧ u.host = p.host) ∧
        exec (.flankRefused l seq r) s = settled (p.nextCandidate i j l) ∧
        exec (.flankWithdrawn l seq r) s = settled (p.nextCandidate i j l))) ∧
  (∀ (s : State) (i j l : Nat) (q : Requirement), s.requirement i j = some q → s.askLink i j = some l → q.state = .asked →
    (s.due q.answer → exec (.flankAskAnswerExpiry i j) s = settled (s.nextCandidate i j l)) ∧
    (¬ s.due q.answer → exec (.flankAskAnswerExpiry i j) s = .next s)) ∧
  ∀ (s : State) (i j l start : Nat) (q : Requirement) (t : State), s.requirement i j = some q → s.askLink i j = some l →
    q.deferred = false →
    (t = s.loseRemote i j l ∧ start = 0 ∨ t = s.nextCandidate i j l ∧ ∃ k, q.candidate = some k ∧ start = k + 1) →
    (let v := (s.giveUpAsk i j l).setRequirement i j { state := .lost }
     v.requirement i j = some { state := .lost } ∧ (∀ x, x ≠ j → v.requirement i x = s.requirement i x) ∧
      (v.slot i).state = (s.slot i).state ∧ (∀ k, k ≠ i → v.slot k = s.slot k) ∧
      i * 16 + j ∈ (v.link l).retiredAsks ∧ s.sends v l [.flankRelease (i * 16 + j)] ∧ (∀ m, m ≠ l → v.link m = s.link m) ∧
      v.locking.locks = s.locking.locks ∧ v.locking.permissions = s.locking.permissions ∧ v.claims = s.claims ∧ v.field = s.field ∧
      ((s.link l).queue.length < 64 → v.movement = s.movement ∧ v.su.mode = s.su.mode) ∧
      let had (k : Nat) : Prop := start ≤ k ∧ ∃ c, (s.candidates i j)[k]? = some c ∧ v.canHave i (fun _ => 0) c
      (∀ k c, had k → (∀ m, m < k → ¬ had m) → (s.candidates i j)[k]? = some c →
        ∃ q', t.requirement i j = some q' ∧ q'.candidate = some k ∧
          match c with
          | .localPoint e _ | .localSignal e => q'.state = .held ∧ t.claimCount e = v.claimCount e + 1 ∧ t.links = v.links
          | .remote m e w => q'.state = .asked ∧ (q'.deferred = true ↔ i * 16 + j ∈ (v.link m).retiredAsks) ∧
            (q'.deferred = false → v.sends t m [.flankAsk (i * 16 + j) e w.code])) ∧
      ((∀ k, ¬ had k) →
        ((s.slot i).state = .pending → t.slot i = { lastOutcome := .dropped .flankUnavailable }) ∧
        ((s.slot i).state ≠ .pending → t.requirement i j = some { state := .lost } ∧ (.flankLost, .slot i) ∈ t.su.causes))) ∧
    i * 16 + j ∈ (t.link l).retiredAsks ∧
    ((s.slot i).state ≠ .pending → ∃ q', t.requirement i j = some q' ∧
      (q'.state = .held ∨ q'.state = .asked ∨ q' = { state := .lost } ∧ (.flankLost, .slot i) ∈ t.su.causes)) ∧
    ((s.slot i).state = .pending → t.slot i = { lastOutcome := .dropped .flankUnavailable } ∨
      ∃ q', t.requirement i j = some q' ∧ (q'.state = .held ∨ q'.state = .asked)) ∧
    (∀ k, k ≠ i → t.slot k = s.slot k) ∧ t.field = s.field ∧ t.time = s.time ∧ t.cfg = s.cfg ∧ t.host = s.host

/-- R147 to R149: a STATE that a link passes on. The neighbour's mode is recorded; the given claims it no longer asks for are released; its
retired references that it no longer holds are freed; an incoming offer that it no longer shows is removed; flank it gave and no longer
lists is no longer held by its candidate; an accepted offer whose acceptance it no longer shows is removed, its PENDING slot dropped, but
one of a PASSING slot is kept (R136); an element whose neighbour shows it occupied beyond takes that while a slot is PASSING over it, and
the release is evaluated; and an element of role BOTH takes the direction the table of R147 gives, its timer stopped, a junior that gives
up OUTBOUND with the cause of DIRECTION_CONFLICT. That this cause goes by the direction before the STATE, so that the STATE which raises it
does not end it, is the model's choice (log 28). An element it does not name reads as direction UNKNOWN with every flag clear; that one
named twice reads as its first entry is the model's choice (log 55). -/
def Obligations.StateIsReconciled : Prop :=
  ∀ (s : State) (l : Nat) (seq : Byte) (b : StateBody), s.passesOn l → b.ok = true → (s.boundariesOn l).Nodup →
    let p := s.heardFrom l seq
    let peer (e : Nat) : StateEntry := (b.entries.find? (fun x => x.element == e)).getD ⟨e, 1, false, false, false⟩
    let read (c : Nat) : Direction := if c = 2 then .outbound else if c = 3 ∨ c = 4 then .inbound else .unknown
    let own (e : Nat) : Direction := if (p.boundary e).direction = .asking then .inbound else (p.boundary e).direction
    let senior : Bool := (p.linkParams l).senior
    let takes (e : Nat) (d : Direction) : Prop :=
      (own e, read (peer e).claim, d) ∈ [(Direction.unknown, Direction.outbound, Direction.inbound), (.unknown, .inbound, .outbound)] ∨
      senior = true ∧ (own e, read (peer e).claim, d) ∈ [(Direction.unknown, Direction.unknown, Direction.outbound),
        (.inbound, .inbound, .outbound)] ∨
      senior = false ∧ (own e, read (peer e).claim, d) = (Direction.outbound, Direction.outbound, Direction.inbound)
    let quiet : Prop := (∀ e ∈ p.boundariesOn l, (p.boundary e).outgoing = none) ∧ ∀ i j, p.askLink i j ≠ some l
    ∃ u : State, exec (.state l seq b) s = settled u ∧
      ((u.link l).neighbourMode = some b.mode ∨ (u.link l).neighbourMode = none ∧ .linkDown l ∈ u.work) ∧
      (∀ c, c ∈ (u.link l).given ↔ c ∈ (p.link l).given ∧ c.reference ∈ b.asks) ∧
      (∀ i j q, i < 32 → p.requirement i j = some q → q.state = .held → p.askLink i j = some l → i * 16 + j ∉ b.given →
        ∀ q', u.requirement i j = some q' → ¬ (q'.state = .held ∧ q'.candidate = q.candidate)) ∧
      (∀ r ∈ (p.link l).retiredAsks, r ∈ b.given → r ∈ (u.link l).retiredAsks) ∧
      (∀ x ∈ (p.link l).retiredOffers, (peer x.2).acceptanceGiven = true → x ∈ (u.link l).retiredOffers) ∧
      (∀ r ∈ (u.link l).retiredAsks, r ∈ (p.link l).retiredAsks ∧ r ∈ b.given ∨
        ∃ i j, r = i * 16 + j ∧ p.askLink i j = some l ∧ u.slot i ≠ p.slot i) ∧
      (∀ x ∈ (u.link l).retiredOffers, x ∈ (p.link l).retiredOffers ∧ (peer x.2).acceptanceGiven = true ∨
        ∃ o, x.2 ∈ p.boundariesOn l ∧ (p.boundary x.2).outgoing = some o ∧ (o.accepted = false ∨ o.deferred = true) ∧ x.1 = o.slot ∧
          (u.boundary x.2).outgoing = none) ∧
      (quiet → (∀ r ∈ (u.link l).retiredAsks, r ∈ (p.link l).retiredAsks ∧ r ∈ b.given) ∧
        ∀ x ∈ (u.link l).retiredOffers, x ∈ (p.link l).retiredOffers ∧ (peer x.2).acceptanceGiven = true) ∧
      (∀ e, (u.boundary e).incoming =
        if e ∈ p.boundariesOn l ∧ (peer e).offerPresent = false then none else (p.boundary e).incoming) ∧
      (∀ e ∈ p.boundariesOn l, ∀ o, (p.boundary e).outgoing = some o → o.accepted = true → (peer e).acceptanceGiven = false →
        ((p.slot o.slot).state ∈ [SlotState.locked, .opened, .approachLocked] → (u.boundary e).outgoing = none) ∧
        ((p.slot o.slot).state = .pending → p.exitBoundary o.slot = some e → (u.boundary e).outgoing = none ∧
          (u.slot o.slot = { lastOutcome := .dropped .refused } ∨ u.slot o.slot = { lastOutcome := .dropped .flankUnavailable }))) ∧
      (∀ e ∈ p.boundariesOn l,
        let passing (i : Nat) : Prop := i < 32 ∧ (p.slot i).state = .passing ∧ p.exitBoundary i = some e
        let shown : Prop := (peer e).occupiedBeyond = true ∧ ∃ i, passing i
        (shown → (u.boundary e).occupiedBeyond = true ∨ ∃ i, passing i ∧ u.slot i = { lastOutcome := .released .passed }) ∧
        (¬ shown → (u.boundary e).occupiedBeyond = (p.boundary e).occupiedBeyond) ∧
        ∀ o, (p.boundary e).outgoing = some o → o.accepted = true → o.deferred = false → (p.slot o.slot).state = .passing →
          (peer e).occupiedBeyond = false →
          ¬ (p.roleOf e = some .both ∧ (p.boundary e).direction = .outbound ∧ takes e .inbound) →
          (u.boundary e).outgoing = some o) ∧
      (∀ e ∈ p.boundariesOn l, p.roleOf e = some .both →
        (∀ d, takes e d → (u.boundary e).direction = d ∧ (u.boundary e).dirTimer = .stopped) ∧
        ((∀ d, ¬ takes e d) → (u.boundary e).direction = (p.boundary e).direction) ∧
        ((p.boundary e).direction = .outbound → takes e .inbound →
          (.directionConflict, .boundary e) ∈ u.su.causes ∧ (u.boundary e).outgoing = none) ∧
        (own e = .inbound → read (peer e).claim = .outbound → (.directionConflict, .boundary e) ∉ u.su.causes)) ∧
      (∀ e, e ∉ p.boundariesOn l ∨ p.roleOf e ≠ some .both → (u.boundary e).direction = (p.boundary e).direction) ∧
      u.field.points = p.field.points ∧ (∀ x, (u.sect x).held = (p.sect x).held) ∧ u.time = p.time ∧ u.cfg = p.cfg ∧ u.host = p.host
end

