-- ==== Sys2Proof/Laws/State.lean ====
section
/-! SUPPORT. One lemma for each field and each unconditional update of the state: what the update leaves of the field. -/

namespace Sys2Proof.Machine

variable (s : State)

@[simp] theorem State.note_time (w : Work) : (s.note w).time = s.time := rfl
@[simp] theorem State.note_cfg (w : Work) : (s.note w).cfg = s.cfg := rfl
@[simp] theorem State.note_field (w : Work) : (s.note w).field = s.field := rfl
@[simp] theorem State.note_locking (w : Work) : (s.note w).locking = s.locking := rfl
@[simp] theorem State.note_claims (w : Work) : (s.note w).claims = s.claims := rfl
@[simp] theorem State.note_movement (w : Work) : (s.note w).movement = s.movement := rfl
@[simp] theorem State.note_links (w : Work) : (s.note w).links = s.links := rfl
@[simp] theorem State.note_boundaries (w : Work) : (s.note w).boundaries = s.boundaries := rfl
@[simp] theorem State.note_su (w : Work) : (s.note w).su = s.su := rfl
@[simp] theorem State.note_host (w : Work) : (s.note w).host = s.host := rfl
@[simp] theorem State.note_reports (w : Work) : (s.note w).reports = s.reports := rfl
@[simp] theorem State.note_work (w : Work) : (s.note w).work = s.work ++ [w] := rfl
@[simp] theorem State.note_choices (w : Work) : (s.note w).choices = s.choices := rfl
@[simp] theorem State.note_pending (w : Work) : (s.note w).pending = s.pending := rfl
@[simp] theorem State.note_inputs (w : Work) : (s.note w).inputs = s.inputs := rfl

@[simp] theorem State.putLink_time (l : Nat) (x : Link) : (s.putLink l x).time = s.time := rfl
@[simp] theorem State.putLink_cfg (l : Nat) (x : Link) : (s.putLink l x).cfg = s.cfg := rfl
@[simp] theorem State.putLink_field (l : Nat) (x : Link) : (s.putLink l x).field = s.field := rfl
@[simp] theorem State.putLink_locking (l : Nat) (x : Link) : (s.putLink l x).locking = s.locking := rfl
@[simp] theorem State.putLink_claims (l : Nat) (x : Link) : (s.putLink l x).claims = s.claims := rfl
@[simp] theorem State.putLink_movement (l : Nat) (x : Link) : (s.putLink l x).movement = s.movement := rfl
@[simp] theorem State.putLink_links (l : Nat) (x : Link) : (s.putLink l x).links = s.links.put l x := rfl
@[simp] theorem State.putLink_boundaries (l : Nat) (x : Link) : (s.putLink l x).boundaries = s.boundaries := rfl
@[simp] theorem State.putLink_su (l : Nat) (x : Link) : (s.putLink l x).su = s.su := rfl
@[simp] theorem State.putLink_host (l : Nat) (x : Link) : (s.putLink l x).host = s.host := rfl
@[simp] theorem State.putLink_reports (l : Nat) (x : Link) : (s.putLink l x).reports = s.reports := rfl
@[simp] theorem State.putLink_work (l : Nat) (x : Link) : (s.putLink l x).work = s.work := rfl
@[simp] theorem State.putLink_choices (l : Nat) (x : Link) : (s.putLink l x).choices = s.choices := rfl
@[simp] theorem State.putLink_pending (l : Nat) (x : Link) : (s.putLink l x).pending = s.pending := rfl
@[simp] theorem State.putLink_inputs (l : Nat) (x : Link) : (s.putLink l x).inputs = s.inputs := rfl

@[simp] theorem State.updLink_time (l : Nat) (f : Link → Link) : (s.updLink l f).time = s.time := rfl
@[simp] theorem State.updLink_cfg (l : Nat) (f : Link → Link) : (s.updLink l f).cfg = s.cfg := rfl
@[simp] theorem State.updLink_field (l : Nat) (f : Link → Link) : (s.updLink l f).field = s.field := rfl
@[simp] theorem State.updLink_locking (l : Nat) (f : Link → Link) : (s.updLink l f).locking = s.locking := rfl
@[simp] theorem State.updLink_claims (l : Nat) (f : Link → Link) : (s.updLink l f).claims = s.claims := rfl
@[simp] theorem State.updLink_movement (l : Nat) (f : Link → Link) : (s.updLink l f).movement = s.movement := rfl
@[simp] theorem State.updLink_links (l : Nat) (f : Link → Link) : (s.updLink l f).links = s.links.put l (f (s.link l)) := rfl
@[simp] theorem State.updLink_boundaries (l : Nat) (f : Link → Link) : (s.updLink l f).boundaries = s.boundaries := rfl
@[simp] theorem State.updLink_su (l : Nat) (f : Link → Link) : (s.updLink l f).su = s.su := rfl
@[simp] theorem State.updLink_host (l : Nat) (f : Link → Link) : (s.updLink l f).host = s.host := rfl
@[simp] theorem State.updLink_reports (l : Nat) (f : Link → Link) : (s.updLink l f).reports = s.reports := rfl
@[simp] theorem State.updLink_work (l : Nat) (f : Link → Link) : (s.updLink l f).work = s.work := rfl
@[simp] theorem State.updLink_choices (l : Nat) (f : Link → Link) : (s.updLink l f).choices = s.choices := rfl
@[simp] theorem State.updLink_pending (l : Nat) (f : Link → Link) : (s.updLink l f).pending = s.pending := rfl
@[simp] theorem State.updLink_inputs (l : Nat) (f : Link → Link) : (s.updLink l f).inputs = s.inputs := rfl

@[simp] theorem State.startSilence_time : (s.startSilence).time = s.time := rfl
@[simp] theorem State.startSilence_cfg : (s.startSilence).cfg = s.cfg := rfl
@[simp] theorem State.startSilence_field : (s.startSilence).field = s.field := rfl
@[simp] theorem State.startSilence_locking : (s.startSilence).locking = s.locking := rfl
@[simp] theorem State.startSilence_claims : (s.startSilence).claims = s.claims := rfl
@[simp] theorem State.startSilence_movement : (s.startSilence).movement = s.movement := rfl
@[simp] theorem State.startSilence_links : (s.startSilence).links = s.links := rfl
@[simp] theorem State.startSilence_boundaries : (s.startSilence).boundaries = s.boundaries := rfl
@[simp] theorem State.startSilence_su : (s.startSilence).su = { s.su with silenceFirst := s.timer s.cfg.params.silence1, silenceSecond := s.timer s.cfg.params.silence2 } := rfl
@[simp] theorem State.startSilence_host : (s.startSilence).host = s.host := rfl
@[simp] theorem State.startSilence_reports : (s.startSilence).reports = s.reports := rfl
@[simp] theorem State.startSilence_work : (s.startSilence).work = s.work := rfl
@[simp] theorem State.startSilence_choices : (s.startSilence).choices = s.choices := rfl
@[simp] theorem State.startSilence_pending : (s.startSilence).pending = s.pending := rfl
@[simp] theorem State.startSilence_inputs : (s.startSilence).inputs = s.inputs := rfl

@[simp] theorem State.addReply_time (r : Reply) : (s.addReply r).time = s.time := rfl
@[simp] theorem State.addReply_cfg (r : Reply) : (s.addReply r).cfg = s.cfg := rfl
@[simp] theorem State.addReply_field (r : Reply) : (s.addReply r).field = s.field := rfl
@[simp] theorem State.addReply_locking (r : Reply) : (s.addReply r).locking = s.locking := rfl
@[simp] theorem State.addReply_claims (r : Reply) : (s.addReply r).claims = s.claims := rfl
@[simp] theorem State.addReply_movement (r : Reply) : (s.addReply r).movement = s.movement := rfl
@[simp] theorem State.addReply_links (r : Reply) : (s.addReply r).links = s.links := rfl
@[simp] theorem State.addReply_boundaries (r : Reply) : (s.addReply r).boundaries = s.boundaries := rfl
@[simp] theorem State.addReply_su (r : Reply) : (s.addReply r).su = s.su := rfl
@[simp] theorem State.addReply_host (r : Reply) : (s.addReply r).host = { s.host with replies := s.host.replies ++ [r] } := rfl
@[simp] theorem State.addReply_reports (r : Reply) : (s.addReply r).reports = s.reports := rfl
@[simp] theorem State.addReply_work (r : Reply) : (s.addReply r).work = s.work := rfl
@[simp] theorem State.addReply_choices (r : Reply) : (s.addReply r).choices = s.choices := rfl
@[simp] theorem State.addReply_pending (r : Reply) : (s.addReply r).pending = s.pending := rfl
@[simp] theorem State.addReply_inputs (r : Reply) : (s.addReply r).inputs = s.inputs := rfl

@[simp] theorem State.badFrame_time (e : ReceiveError) : (s.badFrame e).time = s.time := rfl
@[simp] theorem State.badFrame_cfg (e : ReceiveError) : (s.badFrame e).cfg = s.cfg := rfl
@[simp] theorem State.badFrame_field (e : ReceiveError) : (s.badFrame e).field = s.field := rfl
@[simp] theorem State.badFrame_locking (e : ReceiveError) : (s.badFrame e).locking = s.locking := rfl
@[simp] theorem State.badFrame_claims (e : ReceiveError) : (s.badFrame e).claims = s.claims := rfl
@[simp] theorem State.badFrame_movement (e : ReceiveError) : (s.badFrame e).movement = s.movement := rfl
@[simp] theorem State.badFrame_links (e : ReceiveError) : (s.badFrame e).links = s.links := rfl
@[simp] theorem State.badFrame_boundaries (e : ReceiveError) : (s.badFrame e).boundaries = s.boundaries := rfl
@[simp] theorem State.badFrame_su (e : ReceiveError) : (s.badFrame e).su = s.su := rfl
@[simp] theorem State.badFrame_host (e : ReceiveError) : (s.badFrame e).host = { s.host with counters := s.host.counters.error e } := rfl
@[simp] theorem State.badFrame_reports (e : ReceiveError) : (s.badFrame e).reports = s.reports := rfl
@[simp] theorem State.badFrame_work (e : ReceiveError) : (s.badFrame e).work = s.work := rfl
@[simp] theorem State.badFrame_choices (e : ReceiveError) : (s.badFrame e).choices = s.choices := rfl
@[simp] theorem State.badFrame_pending (e : ReceiveError) : (s.badFrame e).pending = s.pending := rfl
@[simp] theorem State.badFrame_inputs (e : ReceiveError) : (s.badFrame e).inputs = s.inputs := rfl

@[simp] theorem State.choose_time : (s.choose.2).time = s.time := rfl
@[simp] theorem State.choose_cfg : (s.choose.2).cfg = s.cfg := rfl
@[simp] theorem State.choose_field : (s.choose.2).field = s.field := rfl
@[simp] theorem State.choose_locking : (s.choose.2).locking = s.locking := rfl
@[simp] theorem State.choose_claims : (s.choose.2).claims = s.claims := rfl
@[simp] theorem State.choose_movement : (s.choose.2).movement = s.movement := rfl
@[simp] theorem State.choose_links : (s.choose.2).links = s.links := rfl
@[simp] theorem State.choose_boundaries : (s.choose.2).boundaries = s.boundaries := rfl
@[simp] theorem State.choose_su : (s.choose.2).su = s.su := rfl
@[simp] theorem State.choose_host : (s.choose.2).host = s.host := rfl
@[simp] theorem State.choose_reports : (s.choose.2).reports = s.reports := rfl
@[simp] theorem State.choose_work : (s.choose.2).work = s.work := rfl
@[simp] theorem State.choose_choices : (s.choose.2).choices = s.choices + 1 := rfl
@[simp] theorem State.choose_pending : (s.choose.2).pending = s.pending := rfl
@[simp] theorem State.choose_inputs : (s.choose.2).inputs = s.inputs := rfl

end Sys2Proof.Machine
end

