-- ==== Sys2Proof/Laws/Table.lean ====
section
/-! SUPPORT. Laws of the finite tables: what is read after a write or a removal. They hold of every table, whatever the order of its
entries. -/

namespace Sys2Proof.Machine

variable {α : Type}

theorem lookupKey_insertKey_self (k : Nat) (x : α) (l : List (Nat × α)) : lookupKey k (insertKey k x l) = some x := by
  induction l with
  | nil => simp [insertKey, lookupKey]
  | cons p rest ih =>
    obtain ⟨j, v⟩ := p
    by_cases h : j = k
    · simp [insertKey, lookupKey, h]
    · by_cases h' : k < j <;> simp [insertKey, lookupKey, h, h', ih]

theorem lookupKey_insertKey_other {k k' : Nat} (hk : k' ≠ k) (x : α) (l : List (Nat × α)) :
    lookupKey k' (insertKey k x l) = lookupKey k' l := by
  induction l with
  | nil => simp [insertKey, lookupKey, Ne.symm hk]
  | cons p rest ih =>
    obtain ⟨j, v⟩ := p
    by_cases h : j = k
    · subst h; simp [insertKey, lookupKey, Ne.symm hk]
    · by_cases h' : k < j
      · simp [insertKey, lookupKey, h, h', Ne.symm hk]
      · simp [insertKey, lookupKey, h, h', ih]

theorem lookupKey_eraseKey_self (k : Nat) (l : List (Nat × α)) : lookupKey k (eraseKey k l) = none := by
  induction l with
  | nil => rfl
  | cons p rest ih =>
    obtain ⟨j, v⟩ := p
    by_cases h : j = k
    · simpa [eraseKey, h] using ih
    · simpa [eraseKey, lookupKey, h] using ih

theorem lookupKey_eraseKey_other {k k' : Nat} (hk : k' ≠ k) (l : List (Nat × α)) :
    lookupKey k' (eraseKey k l) = lookupKey k' l := by
  induction l with
  | nil => rfl
  | cons p rest ih =>
    obtain ⟨j, v⟩ := p
    by_cases h : j = k
    · subst h; simpa [eraseKey, lookupKey, Ne.symm hk] using ih
    · by_cases h' : j = k'
      · simp [eraseKey, lookupKey, h']; simp [← h', h, lookupKey]
      · simpa [eraseKey, lookupKey, h, h'] using ih

@[simp] theorem Table.find_put_self (t : Table α) (k : Nat) (x : α) : (t.put k x).find k = some x :=
  lookupKey_insertKey_self k x t.entries

theorem Table.find_put_other (t : Table α) {k k' : Nat} (h : k' ≠ k) (x : α) : (t.put k x).find k' = t.find k' :=
  lookupKey_insertKey_other h x t.entries

/-- What a table reads after a write. -/
theorem Table.find_put (t : Table α) (k k' : Nat) (x : α) :
    (t.put k x).find k' = if k' = k then some x else t.find k' := by
  by_cases h : k' = k
  · subst h; simp
  · simp [h, Table.find_put_other]

@[simp] theorem Table.find_drop_self (t : Table α) (k : Nat) : (t.drop k).find k = none :=
  lookupKey_eraseKey_self k t.entries

theorem Table.find_drop_other (t : Table α) {k k' : Nat} (h : k' ≠ k) : (t.drop k).find k' = t.find k' :=
  lookupKey_eraseKey_other h t.entries

/-- What a table reads after a removal. -/
theorem Table.find_drop (t : Table α) (k k' : Nat) : (t.drop k).find k' = if k' = k then none else t.find k' := by
  by_cases h : k' = k
  · subst h; simp
  · simp [h, Table.find_drop_other]

theorem mem_of_lookupKey {k : Nat} {x : α} : ∀ {l : List (Nat × α)}, lookupKey k l = some x → (k, x) ∈ l
  | (j, v) :: rest, h => by
    unfold lookupKey at h
    split at h
    · next hj => cases h; subst hj; simp
    · exact List.mem_cons_of_mem _ (mem_of_lookupKey h)

/-- What is found under a key is an entry of the table. -/
theorem Table.mem_of_find {t : Table α} {k : Nat} {x : α} (h : t.find k = some x) : (k, x) ∈ t.entries := mem_of_lookupKey h

/-- An empty table holds nothing under any key. -/
theorem Table.find_of_empty {t : Table α} (h : t.entries = []) (k : Nat) : t.find k = none := by
  rw [Table.find, h]; rfl

end Sys2Proof.Machine
end

