-- ==== Sys2Proof/Laws/Ops.lean ====
section
/-! SUPPORT. What each named writer of the state does: the record it writes reads back, every other record and every other field
is as before. -/

namespace Sys2Proof.Machine

variable (s : State)

/-! ### Marks -/

@[simp] theorem State.mark_time (sub : Subject) : (s.mark sub).time = s.time := by
  unfold State.mark; split <;> [rfl; (split <;> rfl)]
@[simp] theorem State.mark_cfg (sub : Subject) : (s.mark sub).cfg = s.cfg := by
  unfold State.mark; split <;> [rfl; (split <;> rfl)]
@[simp] theorem State.mark_field (sub : Subject) : (s.mark sub).field = s.field := by
  unfold State.mark; split <;> [rfl; (split <;> rfl)]
@[simp] theorem State.mark_locking (sub : Subject) : (s.mark sub).locking = s.locking := by
  unfold State.mark; split <;> [rfl; (split <;> rfl)]
@[simp] theorem State.mark_claims (sub : Subject) : (s.mark sub).claims = s.claims := by
  unfold State.mark; split <;> [rfl; (split <;> rfl)]
@[simp] theorem State.mark_movement (sub : Subject) : (s.mark sub).movement = s.movement := by
  unfold State.mark; split <;> [rfl; (split <;> rfl)]
@[simp] theorem State.mark_links (sub : Subject) : (s.mark sub).links = s.links := by
  unfold State.mark; split <;> [rfl; (split <;> rfl)]
@[simp] theorem State.mark_boundaries (sub : Subject) : (s.mark sub).boundaries = s.boundaries := by
  unfold State.mark; split <;> [rfl; (split <;> rfl)]
@[simp] theorem State.mark_su (sub : Subject) : (s.mark sub).su = s.su := by
  unfold State.mark; split <;> [rfl; (split <;> rfl)]
@[simp] theorem State.mark_host (sub : Subject) : (s.mark sub).host = s.host := by
  unfold State.mark; split <;> [rfl; (split <;> rfl)]
@[simp] theorem State.mark_work (sub : Subject) : (s.mark sub).work = s.work := by
  unfold State.mark; split <;> [rfl; (split <;> rfl)]
@[simp] theorem State.mark_choices (sub : Subject) : (s.mark sub).choices = s.choices := by
  unfold State.mark; split <;> [rfl; (split <;> rfl)]
@[simp] theorem State.mark_pending (sub : Subject) : (s.mark sub).pending = s.pending := by
  unfold State.mark; split <;> [rfl; (split <;> rfl)]
@[simp] theorem State.mark_inputs (sub : Subject) : (s.mark sub).inputs = s.inputs := by
  unfold State.mark; split <;> [rfl; (split <;> rfl)]

/-- A mark leaves the report queue as it is, or puts its subject at the tail where it does not stand yet. -/
theorem State.mark_reports_cases (sub : Subject) :
    (s.mark sub).reports = s.reports ∨ sub ∉ s.reports ∧ (s.mark sub).reports = s.reports ++ [sub] := by
  unfold State.mark; split
  · exact .inl rfl
  · split
    · exact .inr ⟨‹_›, rfl⟩
    · exact .inl rfl

@[simp] theorem State.mark_defn (sub : Subject) (k : Nat) : (s.mark sub).defn k = s.defn k := by
  simp [State.defn]
@[simp] theorem State.note_defn (w : Work) (k : Nat) : (s.note w).defn k = s.defn k := rfl
@[simp] theorem State.mark_sect (sub : Subject) (k : Nat) : (s.mark sub).sect k = s.sect k := by
  simp [State.sect]
@[simp] theorem State.note_sect (w : Work) (k : Nat) : (s.note w).sect k = s.sect k := rfl
@[simp] theorem State.mark_detection (sub : Subject) (k : Nat) : (s.mark sub).detection k = s.detection k := by
  simp [State.detection]
@[simp] theorem State.note_detection (w : Work) (k : Nat) : (s.note w).detection k = s.detection k := rfl
@[simp] theorem State.mark_signal (sub : Subject) (k : Nat) : (s.mark sub).signal k = s.signal k := by
  simp [State.signal]
@[simp] theorem State.note_signal (w : Work) (k : Nat) : (s.note w).signal k = s.signal k := rfl
@[simp] theorem State.mark_supply (sub : Subject) (k : Nat) : (s.mark sub).supply k = s.supply k := by
  simp [State.supply]
@[simp] theorem State.note_supply (w : Work) (k : Nat) : (s.note w).supply k = s.supply k := rfl
@[simp] theorem State.mark_slot (sub : Subject) (k : Nat) : (s.mark sub).slot k = s.slot k := by
  simp [State.slot]
@[simp] theorem State.note_slot (w : Work) (k : Nat) : (s.note w).slot k = s.slot k := rfl
@[simp] theorem State.mark_lock (sub : Subject) (k : Nat) : (s.mark sub).lock k = s.lock k := by
  simp [State.lock]
@[simp] theorem State.note_lock (w : Work) (k : Nat) : (s.note w).lock k = s.lock k := rfl
@[simp] theorem State.mark_permission (sub : Subject) (k : Nat) : (s.mark sub).permission k = s.permission k := by
  simp [State.permission]
@[simp] theorem State.note_permission (w : Work) (k : Nat) : (s.note w).permission k = s.permission k := rfl
@[simp] theorem State.mark_claim (sub : Subject) (k : Nat) : (s.mark sub).claim k = s.claim k := by
  simp [State.claim]
@[simp] theorem State.note_claim (w : Work) (k : Nat) : (s.note w).claim k = s.claim k := rfl
@[simp] theorem State.mark_throwOf (sub : Subject) (k : Nat) : (s.mark sub).throwOf k = s.throwOf k := by
  simp [State.throwOf]
@[simp] theorem State.note_throwOf (w : Work) (k : Nat) : (s.note w).throwOf k = s.throwOf k := rfl
@[simp] theorem State.mark_powerGroup (sub : Subject) (k : Nat) : (s.mark sub).powerGroup k = s.powerGroup k := by
  simp [State.powerGroup]
@[simp] theorem State.note_powerGroup (w : Work) (k : Nat) : (s.note w).powerGroup k = s.powerGroup k := rfl
@[simp] theorem State.mark_link (sub : Subject) (k : Nat) : (s.mark sub).link k = s.link k := by
  simp [State.link]
@[simp] theorem State.note_link (w : Work) (k : Nat) : (s.note w).link k = s.link k := rfl
@[simp] theorem State.mark_boundary (sub : Subject) (k : Nat) : (s.mark sub).boundary k = s.boundary k := by
  simp [State.boundary]
@[simp] theorem State.note_boundary (w : Work) (k : Nat) : (s.note w).boundary k = s.boundary k := rfl
@[simp] theorem State.mark_routeDef (sub : Subject) (k : Nat) : (s.mark sub).routeDef k = s.routeDef k := by
  simp [State.routeDef]
@[simp] theorem State.note_routeDef (w : Work) (k : Nat) : (s.note w).routeDef k = s.routeDef k := rfl
@[simp] theorem State.mark_linkParams (sub : Subject) (k : Nat) : (s.mark sub).linkParams k = s.linkParams k := by
  simp [State.linkParams]
@[simp] theorem State.note_linkParams (w : Work) (k : Nat) : (s.note w).linkParams k = s.linkParams k := rfl

/-! ### putSection -/

@[simp] theorem State.putSection_time (e : Nat) (x : SectionImage) : (s.putSection e x).time = s.time := by
  unfold State.putSection; split
  · rfl
  · repeat' (first | split | simp)
@[simp] theorem State.putSection_cfg (e : Nat) (x : SectionImage) : (s.putSection e x).cfg = s.cfg := by
  unfold State.putSection; split
  · rfl
  · repeat' (first | split | simp)
@[simp] theorem State.putSection_locking (e : Nat) (x : SectionImage) : (s.putSection e x).locking = s.locking := by
  unfold State.putSection; split
  · rfl
  · repeat' (first | split | simp)
@[simp] theorem State.putSection_claims (e : Nat) (x : SectionImage) : (s.putSection e x).claims = s.claims := by
  unfold State.putSection; split
  · rfl
  · repeat' (first | split | simp)
@[simp] theorem State.putSection_movement (e : Nat) (x : SectionImage) : (s.putSection e x).movement = s.movement := by
  unfold State.putSection; split
  · rfl
  · repeat' (first | split | simp)
@[simp] theorem State.putSection_links (e : Nat) (x : SectionImage) : (s.putSection e x).links = s.links := by
  unfold State.putSection; split
  · rfl
  · repeat' (first | split | simp)
@[simp] theorem State.putSection_boundaries (e : Nat) (x : SectionImage) : (s.putSection e x).boundaries = s.boundaries := by
  unfold State.putSection; split
  · rfl
  · repeat' (first | split | simp)
@[simp] theorem State.putSection_su (e : Nat) (x : SectionImage) : (s.putSection e x).su = s.su := by
  unfold State.putSection; split
  · rfl
  · repeat' (first | split | simp)
@[simp] theorem State.putSection_host (e : Nat) (x : SectionImage) : (s.putSection e x).host = s.host := by
  unfold State.putSection; split
  · rfl
  · repeat' (first | split | simp)
@[simp] theorem State.putSection_work (e : Nat) (x : SectionImage) : (s.putSection e x).work = s.work := by
  unfold State.putSection; split
  · rfl
  · repeat' (first | split | simp)
@[simp] theorem State.putSection_choices (e : Nat) (x : SectionImage) : (s.putSection e x).choices = s.choices := by
  unfold State.putSection; split
  · rfl
  · repeat' (first | split | simp)
@[simp] theorem State.putSection_pending (e : Nat) (x : SectionImage) : (s.putSection e x).pending = s.pending := by
  unfold State.putSection; split
  · rfl
  · repeat' (first | split | simp)
@[simp] theorem State.putSection_inputs (e : Nat) (x : SectionImage) : (s.putSection e x).inputs = s.inputs := by
  unfold State.putSection; split
  · rfl
  · repeat' (first | split | simp)
@[simp] theorem State.putSection_points (e : Nat) (x : SectionImage) : (s.putSection e x).field.points = s.field.points := by
  unfold State.putSection; split
  · rfl
  · repeat' (first | split | simp)
@[simp] theorem State.putSection_signals (e : Nat) (x : SectionImage) : (s.putSection e x).field.signals = s.field.signals := by
  unfold State.putSection; split
  · rfl
  · repeat' (first | split | simp)
@[simp] theorem State.putSection_supplies (e : Nat) (x : SectionImage) : (s.putSection e x).field.supplies = s.field.supplies := by
  unfold State.putSection; split
  · rfl
  · repeat' (first | split | simp)
@[simp] theorem State.putSection_outstanding (e : Nat) (x : SectionImage) : (s.putSection e x).field.outstanding = s.field.outstanding := by
  unfold State.putSection; split
  · rfl
  · repeat' (first | split | simp)
/-- The record written reads back, and every other one is as before. -/
theorem State.putSection_sect (e : Nat) (x : SectionImage) (k : Nat) : (s.putSection e x).sect k = if k = e then x else s.sect k := by
  unfold State.putSection; split
  · split <;> simp_all
  · repeat' (first | split | simp_all [State.sect, Table.find_put])

/-! ### putDetection -/

@[simp] theorem State.putDetection_time (e : Nat) (x : Detection) : (s.putDetection e x).time = s.time := by
  unfold State.putDetection; split
  · rfl
  · repeat' (first | split | simp)
@[simp] theorem State.putDetection_cfg (e : Nat) (x : Detection) : (s.putDetection e x).cfg = s.cfg := by
  unfold State.putDetection; split
  · rfl
  · repeat' (first | split | simp)
@[simp] theorem State.putDetection_locking (e : Nat) (x : Detection) : (s.putDetection e x).locking = s.locking := by
  unfold State.putDetection; split
  · rfl
  · repeat' (first | split | simp)
@[simp] theorem State.putDetection_claims (e : Nat) (x : Detection) : (s.putDetection e x).claims = s.claims := by
  unfold State.putDetection; split
  · rfl
  · repeat' (first | split | simp)
@[simp] theorem State.putDetection_movement (e : Nat) (x : Detection) : (s.putDetection e x).movement = s.movement := by
  unfold State.putDetection; split
  · rfl
  · repeat' (first | split | simp)
@[simp] theorem State.putDetection_links (e : Nat) (x : Detection) : (s.putDetection e x).links = s.links := by
  unfold State.putDetection; split
  · rfl
  · repeat' (first | split | simp)
@[simp] theorem State.putDetection_boundaries (e : Nat) (x : Detection) : (s.putDetection e x).boundaries = s.boundaries := by
  unfold State.putDetection; split
  · rfl
  · repeat' (first | split | simp)
@[simp] theorem State.putDetection_su (e : Nat) (x : Detection) : (s.putDetection e x).su = s.su := by
  unfold State.putDetection; split
  · rfl
  · repeat' (first | split | simp)
@[simp] theorem State.putDetection_host (e : Nat) (x : Detection) : (s.putDetection e x).host = s.host := by
  unfold State.putDetection; split
  · rfl
  · repeat' (first | split | simp)
@[simp] theorem State.putDetection_choices (e : Nat) (x : Detection) : (s.putDetection e x).choices = s.choices := by
  unfold State.putDetection; split
  · rfl
  · repeat' (first | split | simp)
@[simp] theorem State.putDetection_pending (e : Nat) (x : Detection) : (s.putDetection e x).pending = s.pending := by
  unfold State.putDetection; split
  · rfl
  · repeat' (first | split | simp)
@[simp] theorem State.putDetection_inputs (e : Nat) (x : Detection) : (s.putDetection e x).inputs = s.inputs := by
  unfold State.putDetection; split
  · rfl
  · repeat' (first | split | simp)
@[simp] theorem State.putDetection_sections (e : Nat) (x : Detection) : (s.putDetection e x).field.sections = s.field.sections := by
  unfold State.putDetection; split
  · rfl
  · repeat' (first | split | simp)
@[simp] theorem State.putDetection_signals (e : Nat) (x : Detection) : (s.putDetection e x).field.signals = s.field.signals := by
  unfold State.putDetection; split
  · rfl
  · repeat' (first | split | simp)
@[simp] theorem State.putDetection_supplies (e : Nat) (x : Detection) : (s.putDetection e x).field.supplies = s.field.supplies := by
  unfold State.putDetection; split
  · rfl
  · repeat' (first | split | simp)
@[simp] theorem State.putDetection_outstanding (e : Nat) (x : Detection) : (s.putDetection e x).field.outstanding = s.field.outstanding := by
  unfold State.putDetection; split
  · rfl
  · repeat' (first | split | simp)
/-- The record written reads back, and every other one is as before. -/
theorem State.putDetection_detection (e : Nat) (x : Detection) (k : Nat) : (s.putDetection e x).detection k = if k = e then x else s.detection k := by
  unfold State.putDetection; split
  · split <;> simp_all
  · repeat' (first | split | simp_all [State.detection, Table.find_put])

/-! ### putSignal -/

@[simp] theorem State.putSignal_time (e : Nat) (x : SignalImage) : (s.putSignal e x).time = s.time := by
  unfold State.putSignal; split
  · rfl
  · repeat' (first | split | simp)
@[simp] theorem State.putSignal_cfg (e : Nat) (x : SignalImage) : (s.putSignal e x).cfg = s.cfg := by
  unfold State.putSignal; split
  · rfl
  · repeat' (first | split | simp)
@[simp] theorem State.putSignal_locking (e : Nat) (x : SignalImage) : (s.putSignal e x).locking = s.locking := by
  unfold State.putSignal; split
  · rfl
  · repeat' (first | split | simp)
@[simp] theorem State.putSignal_claims (e : Nat) (x : SignalImage) : (s.putSignal e x).claims = s.claims := by
  unfold State.putSignal; split
  · rfl
  · repeat' (first | split | simp)
@[simp] theorem State.putSignal_movement (e : Nat) (x : SignalImage) : (s.putSignal e x).movement = s.movement := by
  unfold State.putSignal; split
  · rfl
  · repeat' (first | split | simp)
@[simp] theorem State.putSignal_links (e : Nat) (x : SignalImage) : (s.putSignal e x).links = s.links := by
  unfold State.putSignal; split
  · rfl
  · repeat' (first | split | simp)
@[simp] theorem State.putSignal_boundaries (e : Nat) (x : SignalImage) : (s.putSignal e x).boundaries = s.boundaries := by
  unfold State.putSignal; split
  · rfl
  · repeat' (first | split | simp)
@[simp] theorem State.putSignal_su (e : Nat) (x : SignalImage) : (s.putSignal e x).su = s.su := by
  unfold State.putSignal; split
  · rfl
  · repeat' (first | split | simp)
@[simp] theorem State.putSignal_host (e : Nat) (x : SignalImage) : (s.putSignal e x).host = s.host := by
  unfold State.putSignal; split
  · rfl
  · repeat' (first | split | simp)
@[simp] theorem State.putSignal_choices (e : Nat) (x : SignalImage) : (s.putSignal e x).choices = s.choices := by
  unfold State.putSignal; split
  · rfl
  · repeat' (first | split | simp)
@[simp] theorem State.putSignal_pending (e : Nat) (x : SignalImage) : (s.putSignal e x).pending = s.pending := by
  unfold State.putSignal; split
  · rfl
  · repeat' (first | split | simp)
@[simp] theorem State.putSignal_inputs (e : Nat) (x : SignalImage) : (s.putSignal e x).inputs = s.inputs := by
  unfold State.putSignal; split
  · rfl
  · repeat' (first | split | simp)
@[simp] theorem State.putSignal_sections (e : Nat) (x : SignalImage) : (s.putSignal e x).field.sections = s.field.sections := by
  unfold State.putSignal; split
  · rfl
  · repeat' (first | split | simp)
@[simp] theorem State.putSignal_points (e : Nat) (x : SignalImage) : (s.putSignal e x).field.points = s.field.points := by
  unfold State.putSignal; split
  · rfl
  · repeat' (first | split | simp)
@[simp] theorem State.putSignal_supplies (e : Nat) (x : SignalImage) : (s.putSignal e x).field.supplies = s.field.supplies := by
  unfold State.putSignal; split
  · rfl
  · repeat' (first | split | simp)
@[simp] theorem State.putSignal_outstanding (e : Nat) (x : SignalImage) : (s.putSignal e x).field.outstanding = s.field.outstanding := by
  unfold State.putSignal; split
  · rfl
  · repeat' (first | split | simp)
/-- The record written reads back, and every other one is as before. -/
theorem State.putSignal_signal (e : Nat) (x : SignalImage) (k : Nat) : (s.putSignal e x).signal k = if k = e then x else s.signal k := by
  unfold State.putSignal; split
  · split <;> simp_all
  · repeat' (first | split | simp_all [State.signal, Table.find_put])

/-! ### putSupply -/

@[simp] theorem State.putSupply_time (e : Nat) (x : Supply) : (s.putSupply e x).time = s.time := by
  unfold State.putSupply; split
  · rfl
  · repeat' (first | split | simp)
@[simp] theorem State.putSupply_cfg (e : Nat) (x : Supply) : (s.putSupply e x).cfg = s.cfg := by
  unfold State.putSupply; split
  · rfl
  · repeat' (first | split | simp)
@[simp] theorem State.putSupply_locking (e : Nat) (x : Supply) : (s.putSupply e x).locking = s.locking := by
  unfold State.putSupply; split
  · rfl
  · repeat' (first | split | simp)
@[simp] theorem State.putSupply_claims (e : Nat) (x : Supply) : (s.putSupply e x).claims = s.claims := by
  unfold State.putSupply; split
  · rfl
  · repeat' (first | split | simp)
@[simp] theorem State.putSupply_movement (e : Nat) (x : Supply) : (s.putSupply e x).movement = s.movement := by
  unfold State.putSupply; split
  · rfl
  · repeat' (first | split | simp)
@[simp] theorem State.putSupply_links (e : Nat) (x : Supply) : (s.putSupply e x).links = s.links := by
  unfold State.putSupply; split
  · rfl
  · repeat' (first | split | simp)
@[simp] theorem State.putSupply_boundaries (e : Nat) (x : Supply) : (s.putSupply e x).boundaries = s.boundaries := by
  unfold State.putSupply; split
  · rfl
  · repeat' (first | split | simp)
@[simp] theorem State.putSupply_su (e : Nat) (x : Supply) : (s.putSupply e x).su = s.su := by
  unfold State.putSupply; split
  · rfl
  · repeat' (first | split | simp)
@[simp] theorem State.putSupply_host (e : Nat) (x : Supply) : (s.putSupply e x).host = s.host := by
  unfold State.putSupply; split
  · rfl
  · repeat' (first | split | simp)
@[simp] theorem State.putSupply_work (e : Nat) (x : Supply) : (s.putSupply e x).work = s.work := by
  unfold State.putSupply; split
  · rfl
  · repeat' (first | split | simp)
@[simp] theorem State.putSupply_choices (e : Nat) (x : Supply) : (s.putSupply e x).choices = s.choices := by
  unfold State.putSupply; split
  · rfl
  · repeat' (first | split | simp)
@[simp] theorem State.putSupply_pending (e : Nat) (x : Supply) : (s.putSupply e x).pending = s.pending := by
  unfold State.putSupply; split
  · rfl
  · repeat' (first | split | simp)
@[simp] theorem State.putSupply_inputs (e : Nat) (x : Supply) : (s.putSupply e x).inputs = s.inputs := by
  unfold State.putSupply; split
  · rfl
  · repeat' (first | split | simp)
@[simp] theorem State.putSupply_sections (e : Nat) (x : Supply) : (s.putSupply e x).field.sections = s.field.sections := by
  unfold State.putSupply; split
  · rfl
  · repeat' (first | split | simp)
@[simp] theorem State.putSupply_points (e : Nat) (x : Supply) : (s.putSupply e x).field.points = s.field.points := by
  unfold State.putSupply; split
  · rfl
  · repeat' (first | split | simp)
@[simp] theorem State.putSupply_signals (e : Nat) (x : Supply) : (s.putSupply e x).field.signals = s.field.signals := by
  unfold State.putSupply; split
  · rfl
  · repeat' (first | split | simp)
@[simp] theorem State.putSupply_outstanding (e : Nat) (x : Supply) : (s.putSupply e x).field.outstanding = s.field.outstanding := by
  unfold State.putSupply; split
  · rfl
  · repeat' (first | split | simp)
/-- The record written reads back, and every other one is as before. -/
theorem State.putSupply_supply (e : Nat) (x : Supply) (k : Nat) : (s.putSupply e x).supply k = if k = e then x else s.supply k := by
  unfold State.putSupply; split
  · split <;> simp_all
  · repeat' (first | split | simp_all [State.supply, Table.find_put])

/-! ### putPermission -/

@[simp] theorem State.putPermission_time (e : Nat) (x : Permission) : (s.putPermission e x).time = s.time := by
  unfold State.putPermission; split
  · rfl
  · repeat' (first | split | simp)
@[simp] theorem State.putPermission_cfg (e : Nat) (x : Permission) : (s.putPermission e x).cfg = s.cfg := by
  unfold State.putPermission; split
  · rfl
  · repeat' (first | split | simp)
@[simp] theorem State.putPermission_field (e : Nat) (x : Permission) : (s.putPermission e x).field = s.field := by
  unfold State.putPermission; split
  · rfl
  · repeat' (first | split | simp)
@[simp] theorem State.putPermission_claims (e : Nat) (x : Permission) : (s.putPermission e x).claims = s.claims := by
  unfold State.putPermission; split
  · rfl
  · repeat' (first | split | simp)
@[simp] theorem State.putPermission_movement (e : Nat) (x : Permission) : (s.putPermission e x).movement = s.movement := by
  unfold State.putPermission; split
  · rfl
  · repeat' (first | split | simp)
@[simp] theorem State.putPermission_links (e : Nat) (x : Permission) : (s.putPermission e x).links = s.links := by
  unfold State.putPermission; split
  · rfl
  · repeat' (first | split | simp)
@[simp] theorem State.putPermission_boundaries (e : Nat) (x : Permission) : (s.putPermission e x).boundaries = s.boundaries := by
  unfold State.putPermission; split
  · rfl
  · repeat' (first | split | simp)
@[simp] theorem State.putPermission_su (e : Nat) (x : Permission) : (s.putPermission e x).su = s.su := by
  unfold State.putPermission; split
  · rfl
  · repeat' (first | split | simp)
@[simp] theorem State.putPermission_host (e : Nat) (x : Permission) : (s.putPermission e x).host = s.host := by
  unfold State.putPermission; split
  · rfl
  · repeat' (first | split | simp)
@[simp] theorem State.putPermission_choices (e : Nat) (x : Permission) : (s.putPermission e x).choices = s.choices := by
  unfold State.putPermission; split
  · rfl
  · repeat' (first | split | simp)
@[simp] theorem State.putPermission_pending (e : Nat) (x : Permission) : (s.putPermission e x).pending = s.pending := by
  unfold State.putPermission; split
  · rfl
  · repeat' (first | split | simp)
@[simp] theorem State.putPermission_inputs (e : Nat) (x : Permission) : (s.putPermission e x).inputs = s.inputs := by
  unfold State.putPermission; split
  · rfl
  · repeat' (first | split | simp)
@[simp] theorem State.putPermission_slots (e : Nat) (x : Permission) : (s.putPermission e x).locking.slots = s.locking.slots := by
  unfold State.putPermission; split
  · rfl
  · repeat' (first | split | simp)
@[simp] theorem State.putPermission_locks (e : Nat) (x : Permission) : (s.putPermission e x).locking.locks = s.locking.locks := by
  unfold State.putPermission; split
  · rfl
  · repeat' (first | split | simp)
/-- The record written reads back, and every other one is as before. -/
theorem State.putPermission_permission (e : Nat) (x : Permission) (k : Nat) : (s.putPermission e x).permission k = if k = e then x else s.permission k := by
  unfold State.putPermission; split
  · split <;> simp_all
  · repeat' (first | split | simp_all [State.permission, Table.find_put])

/-! ### putThrow -/

@[simp] theorem State.putThrow_time (e : Nat) (x : Throw) : (s.putThrow e x).time = s.time := by
  unfold State.putThrow; split
  · rfl
  · repeat' (first | split | simp)
@[simp] theorem State.putThrow_cfg (e : Nat) (x : Throw) : (s.putThrow e x).cfg = s.cfg := by
  unfold State.putThrow; split
  · rfl
  · repeat' (first | split | simp)
@[simp] theorem State.putThrow_field (e : Nat) (x : Throw) : (s.putThrow e x).field = s.field := by
  unfold State.putThrow; split
  · rfl
  · repeat' (first | split | simp)
@[simp] theorem State.putThrow_locking (e : Nat) (x : Throw) : (s.putThrow e x).locking = s.locking := by
  unfold State.putThrow; split
  · rfl
  · repeat' (first | split | simp)
@[simp] theorem State.putThrow_claims (e : Nat) (x : Throw) : (s.putThrow e x).claims = s.claims := by
  unfold State.putThrow; split
  · rfl
  · repeat' (first | split | simp)
@[simp] theorem State.putThrow_links (e : Nat) (x : Throw) : (s.putThrow e x).links = s.links := by
  unfold State.putThrow; split
  · rfl
  · repeat' (first | split | simp)
@[simp] theorem State.putThrow_boundaries (e : Nat) (x : Throw) : (s.putThrow e x).boundaries = s.boundaries := by
  unfold State.putThrow; split
  · rfl
  · repeat' (first | split | simp)
@[simp] theorem State.putThrow_su (e : Nat) (x : Throw) : (s.putThrow e x).su = s.su := by
  unfold State.putThrow; split
  · rfl
  · repeat' (first | split | simp)
@[simp] theorem State.putThrow_host (e : Nat) (x : Throw) : (s.putThrow e x).host = s.host := by
  unfold State.putThrow; split
  · rfl
  · repeat' (first | split | simp)
@[simp] theorem State.putThrow_choices (e : Nat) (x : Throw) : (s.putThrow e x).choices = s.choices := by
  unfold State.putThrow; split
  · rfl
  · repeat' (first | split | simp)
@[simp] theorem State.putThrow_pending (e : Nat) (x : Throw) : (s.putThrow e x).pending = s.pending := by
  unfold State.putThrow; split
  · rfl
  · repeat' (first | split | simp)
@[simp] theorem State.putThrow_inputs (e : Nat) (x : Throw) : (s.putThrow e x).inputs = s.inputs := by
  unfold State.putThrow; split
  · rfl
  · repeat' (first | split | simp)
@[simp] theorem State.putThrow_groups (e : Nat) (x : Throw) : (s.putThrow e x).movement.groups = s.movement.groups := by
  unfold State.putThrow; split
  · rfl
  · repeat' (first | split | simp)
/-- The record written reads back, and every other one is as before. -/
theorem State.putThrow_throwOf (e : Nat) (x : Throw) (k : Nat) : (s.putThrow e x).throwOf k = if k = e then x else s.throwOf k := by
  unfold State.putThrow; split
  · split <;> simp_all
  · repeat' (first | split | simp_all [State.throwOf, Table.find_put])
/-- What a throw record's change notes: the point for a change of throw state, its order for one of the order alone, and nothing
otherwise. -/
theorem State.putThrow_work (e : Nat) (x : Throw) : (s.putThrow e x).work = s.work ++
    (if (s.throwOf e).state ≠ x.state then [.point e] else if (s.throwOf e).order ≠ x.order then [.order e] else []) := by
  unfold State.putThrow; split
  · simp_all
  · repeat' (first | split | simp_all)

/-! ### putGroup -/

@[simp] theorem State.putGroup_time (e : Nat) (x : PowerGroup) : (s.putGroup e x).time = s.time := by
  unfold State.putGroup; split
  · rfl
  · repeat' (first | split | simp)
@[simp] theorem State.putGroup_cfg (e : Nat) (x : PowerGroup) : (s.putGroup e x).cfg = s.cfg := by
  unfold State.putGroup; split
  · rfl
  · repeat' (first | split | simp)
@[simp] theorem State.putGroup_field (e : Nat) (x : PowerGroup) : (s.putGroup e x).field = s.field := by
  unfold State.putGroup; split
  · rfl
  · repeat' (first | split | simp)
@[simp] theorem State.putGroup_locking (e : Nat) (x : PowerGroup) : (s.putGroup e x).locking = s.locking := by
  unfold State.putGroup; split
  · rfl
  · repeat' (first | split | simp)
@[simp] theorem State.putGroup_claims (e : Nat) (x : PowerGroup) : (s.putGroup e x).claims = s.claims := by
  unfold State.putGroup; split
  · rfl
  · repeat' (first | split | simp)
@[simp] theorem State.putGroup_links (e : Nat) (x : PowerGroup) : (s.putGroup e x).links = s.links := by
  unfold State.putGroup; split
  · rfl
  · repeat' (first | split | simp)
@[simp] theorem State.putGroup_boundaries (e : Nat) (x : PowerGroup) : (s.putGroup e x).boundaries = s.boundaries := by
  unfold State.putGroup; split
  · rfl
  · repeat' (first | split | simp)
@[simp] theorem State.putGroup_su (e : Nat) (x : PowerGroup) : (s.putGroup e x).su = s.su := by
  unfold State.putGroup; split
  · rfl
  · repeat' (first | split | simp)
@[simp] theorem State.putGroup_host (e : Nat) (x : PowerGroup) : (s.putGroup e x).host = s.host := by
  unfold State.putGroup; split
  · rfl
  · repeat' (first | split | simp)
@[simp] theorem State.putGroup_work (e : Nat) (x : PowerGroup) : (s.putGroup e x).work = s.work := by
  unfold State.putGroup; split
  · rfl
  · repeat' (first | split | simp)
@[simp] theorem State.putGroup_choices (e : Nat) (x : PowerGroup) : (s.putGroup e x).choices = s.choices := by
  unfold State.putGroup; split
  · rfl
  · repeat' (first | split | simp)
@[simp] theorem State.putGroup_pending (e : Nat) (x : PowerGroup) : (s.putGroup e x).pending = s.pending := by
  unfold State.putGroup; split
  · rfl
  · repeat' (first | split | simp)
@[simp] theorem State.putGroup_inputs (e : Nat) (x : PowerGroup) : (s.putGroup e x).inputs = s.inputs := by
  unfold State.putGroup; split
  · rfl
  · repeat' (first | split | simp)
@[simp] theorem State.putGroup_throws (e : Nat) (x : PowerGroup) : (s.putGroup e x).movement.throws = s.movement.throws := by
  unfold State.putGroup; split
  · rfl
  · repeat' (first | split | simp)
/-- The record written reads back, and every other one is as before. -/
theorem State.putGroup_powerGroup (e : Nat) (x : PowerGroup) (k : Nat) : (s.putGroup e x).powerGroup k = if k = e then x else s.powerGroup k := by
  unfold State.putGroup; split
  · split <;> simp_all
  · repeat' (first | split | simp_all [State.powerGroup, Table.find_put])

/-! ### putBoundary -/

@[simp] theorem State.putBoundary_time (e : Nat) (x : Boundary) : (s.putBoundary e x).time = s.time := by
  unfold State.putBoundary; split
  · rfl
  · repeat' (first | split | simp)
@[simp] theorem State.putBoundary_cfg (e : Nat) (x : Boundary) : (s.putBoundary e x).cfg = s.cfg := by
  unfold State.putBoundary; split
  · rfl
  · repeat' (first | split | simp)
@[simp] theorem State.putBoundary_field (e : Nat) (x : Boundary) : (s.putBoundary e x).field = s.field := by
  unfold State.putBoundary; split
  · rfl
  · repeat' (first | split | simp)
@[simp] theorem State.putBoundary_locking (e : Nat) (x : Boundary) : (s.putBoundary e x).locking = s.locking := by
  unfold State.putBoundary; split
  · rfl
  · repeat' (first | split | simp)
@[simp] theorem State.putBoundary_claims (e : Nat) (x : Boundary) : (s.putBoundary e x).claims = s.claims := by
  unfold State.putBoundary; split
  · rfl
  · repeat' (first | split | simp)
@[simp] theorem State.putBoundary_movement (e : Nat) (x : Boundary) : (s.putBoundary e x).movement = s.movement := by
  unfold State.putBoundary; split
  · rfl
  · repeat' (first | split | simp)
@[simp] theorem State.putBoundary_links (e : Nat) (x : Boundary) : (s.putBoundary e x).links = s.links := by
  unfold State.putBoundary; split
  · rfl
  · repeat' (first | split | simp)
@[simp] theorem State.putBoundary_su (e : Nat) (x : Boundary) : (s.putBoundary e x).su = s.su := by
  unfold State.putBoundary; split
  · rfl
  · repeat' (first | split | simp)
@[simp] theorem State.putBoundary_host (e : Nat) (x : Boundary) : (s.putBoundary e x).host = s.host := by
  unfold State.putBoundary; split
  · rfl
  · repeat' (first | split | simp)
@[simp] theorem State.putBoundary_choices (e : Nat) (x : Boundary) : (s.putBoundary e x).choices = s.choices := by
  unfold State.putBoundary; split
  · rfl
  · repeat' (first | split | simp)
@[simp] theorem State.putBoundary_pending (e : Nat) (x : Boundary) : (s.putBoundary e x).pending = s.pending := by
  unfold State.putBoundary; split
  · rfl
  · repeat' (first | split | simp)
@[simp] theorem State.putBoundary_inputs (e : Nat) (x : Boundary) : (s.putBoundary e x).inputs = s.inputs := by
  unfold State.putBoundary; split
  · rfl
  · repeat' (first | split | simp)
/-- The record written reads back, and every other one is as before. -/
theorem State.putBoundary_boundary (e : Nat) (x : Boundary) (k : Nat) : (s.putBoundary e x).boundary k = if k = e then x else s.boundary k := by
  unfold State.putBoundary; split
  · split <;> simp_all
  · repeat' (first | split | simp_all [State.boundary, Table.find_put])

/-! ### putSlot -/

@[simp] theorem State.putSlot_time (e : Nat) (x : Slot) : (s.putSlot e x).time = s.time := by
  unfold State.putSlot; split
  · rfl
  · repeat' (first | split | simp)
@[simp] theorem State.putSlot_cfg (e : Nat) (x : Slot) : (s.putSlot e x).cfg = s.cfg := by
  unfold State.putSlot; split
  · rfl
  · repeat' (first | split | simp)
@[simp] theorem State.putSlot_field (e : Nat) (x : Slot) : (s.putSlot e x).field = s.field := by
  unfold State.putSlot; split
  · rfl
  · repeat' (first | split | simp)
@[simp] theorem State.putSlot_claims (e : Nat) (x : Slot) : (s.putSlot e x).claims = s.claims := by
  unfold State.putSlot; split
  · rfl
  · repeat' (first | split | simp)
@[simp] theorem State.putSlot_movement (e : Nat) (x : Slot) : (s.putSlot e x).movement = s.movement := by
  unfold State.putSlot; split
  · rfl
  · repeat' (first | split | simp)
@[simp] theorem State.putSlot_links (e : Nat) (x : Slot) : (s.putSlot e x).links = s.links := by
  unfold State.putSlot; split
  · rfl
  · repeat' (first | split | simp)
@[simp] theorem State.putSlot_boundaries (e : Nat) (x : Slot) : (s.putSlot e x).boundaries = s.boundaries := by
  unfold State.putSlot; split
  · rfl
  · repeat' (first | split | simp)
@[simp] theorem State.putSlot_su (e : Nat) (x : Slot) : (s.putSlot e x).su = s.su := by
  unfold State.putSlot; split
  · rfl
  · repeat' (first | split | simp)
@[simp] theorem State.putSlot_host (e : Nat) (x : Slot) : (s.putSlot e x).host = s.host := by
  unfold State.putSlot; split
  · rfl
  · repeat' (first | split | simp)
@[simp] theorem State.putSlot_choices (e : Nat) (x : Slot) : (s.putSlot e x).choices = s.choices := by
  unfold State.putSlot; split
  · rfl
  · repeat' (first | split | simp)
@[simp] theorem State.putSlot_pending (e : Nat) (x : Slot) : (s.putSlot e x).pending = s.pending := by
  unfold State.putSlot; split
  · rfl
  · repeat' (first | split | simp)
@[simp] theorem State.putSlot_inputs (e : Nat) (x : Slot) : (s.putSlot e x).inputs = s.inputs := by
  unfold State.putSlot; split
  · rfl
  · repeat' (first | split | simp)
@[simp] theorem State.putSlot_locks (e : Nat) (x : Slot) : (s.putSlot e x).locking.locks = s.locking.locks := by
  unfold State.putSlot; split
  · rfl
  · repeat' (first | split | simp)
@[simp] theorem State.putSlot_permissions (e : Nat) (x : Slot) : (s.putSlot e x).locking.permissions = s.locking.permissions := by
  unfold State.putSlot; split
  · rfl
  · repeat' (first | split | simp)
/-- The record written reads back, and every other one is as before. -/
theorem State.putSlot_slot (e : Nat) (x : Slot) (k : Nat) : (s.putSlot e x).slot k = if k = e then x else s.slot k := by
  unfold State.putSlot; split
  · split <;> simp_all
  · repeat' (first | split | simp_all [State.slot, Table.find_put])

/-! ### putLock -/

@[simp] theorem State.putLock_time (e : Nat) (x : Option Lock) : (s.putLock e x).time = s.time := by
  unfold State.putLock; split
  · rfl
  · repeat' (first | split | simp)
@[simp] theorem State.putLock_cfg (e : Nat) (x : Option Lock) : (s.putLock e x).cfg = s.cfg := by
  unfold State.putLock; split
  · rfl
  · repeat' (first | split | simp)
@[simp] theorem State.putLock_field (e : Nat) (x : Option Lock) : (s.putLock e x).field = s.field := by
  unfold State.putLock; split
  · rfl
  · repeat' (first | split | simp)
@[simp] theorem State.putLock_claims (e : Nat) (x : Option Lock) : (s.putLock e x).claims = s.claims := by
  unfold State.putLock; split
  · rfl
  · repeat' (first | split | simp)
@[simp] theorem State.putLock_movement (e : Nat) (x : Option Lock) : (s.putLock e x).movement = s.movement := by
  unfold State.putLock; split
  · rfl
  · repeat' (first | split | simp)
@[simp] theorem State.putLock_links (e : Nat) (x : Option Lock) : (s.putLock e x).links = s.links := by
  unfold State.putLock; split
  · rfl
  · repeat' (first | split | simp)
@[simp] theorem State.putLock_boundaries (e : Nat) (x : Option Lock) : (s.putLock e x).boundaries = s.boundaries := by
  unfold State.putLock; split
  · rfl
  · repeat' (first | split | simp)
@[simp] theorem State.putLock_su (e : Nat) (x : Option Lock) : (s.putLock e x).su = s.su := by
  unfold State.putLock; split
  · rfl
  · repeat' (first | split | simp)
@[simp] theorem State.putLock_host (e : Nat) (x : Option Lock) : (s.putLock e x).host = s.host := by
  unfold State.putLock; split
  · rfl
  · repeat' (first | split | simp)
@[simp] theorem State.putLock_choices (e : Nat) (x : Option Lock) : (s.putLock e x).choices = s.choices := by
  unfold State.putLock; split
  · rfl
  · repeat' (first | split | simp)
@[simp] theorem State.putLock_pending (e : Nat) (x : Option Lock) : (s.putLock e x).pending = s.pending := by
  unfold State.putLock; split
  · rfl
  · repeat' (first | split | simp)
@[simp] theorem State.putLock_inputs (e : Nat) (x : Option Lock) : (s.putLock e x).inputs = s.inputs := by
  unfold State.putLock; split
  · rfl
  · repeat' (first | split | simp)
@[simp] theorem State.putLock_slots (e : Nat) (x : Option Lock) : (s.putLock e x).locking.slots = s.locking.slots := by
  unfold State.putLock; split
  · rfl
  · repeat' (first | split | simp)
@[simp] theorem State.putLock_permissions (e : Nat) (x : Option Lock) : (s.putLock e x).locking.permissions = s.locking.permissions := by
  unfold State.putLock; split
  · rfl
  · repeat' (first | split | simp)
/-- The record written reads back, and every other one is as before. -/
theorem State.putLock_lock (e : Nat) (x : Option Lock) (k : Nat) : (s.putLock e x).lock k = if k = e then x else s.lock k := by
  unfold State.putLock; split
  · split <;> simp_all
  · cases x <;> repeat' (first | split | simp_all [State.lock, Table.find_put, Table.find_drop])
/-- A lock's change notes it where the element is a point (R38, R71). -/
theorem State.putLock_work (e : Nat) (x : Option Lock) : (s.putLock e x).work =
    s.work ++ (if s.lock e ≠ x ∧ s.isPoint e = true then [.lock e] else []) := by
  unfold State.putLock; split
  · simp_all
  · by_cases hp : s.isPoint e = true <;> simp_all

/-! ### putClaim -/

@[simp] theorem State.putClaim_time (e : Nat) (x : Option Claim) : (s.putClaim e x).time = s.time := by
  unfold State.putClaim; split
  · rfl
  · repeat' (first | split | simp)
@[simp] theorem State.putClaim_cfg (e : Nat) (x : Option Claim) : (s.putClaim e x).cfg = s.cfg := by
  unfold State.putClaim; split
  · rfl
  · repeat' (first | split | simp)
@[simp] theorem State.putClaim_field (e : Nat) (x : Option Claim) : (s.putClaim e x).field = s.field := by
  unfold State.putClaim; split
  · rfl
  · repeat' (first | split | simp)
@[simp] theorem State.putClaim_locking (e : Nat) (x : Option Claim) : (s.putClaim e x).locking = s.locking := by
  unfold State.putClaim; split
  · rfl
  · repeat' (first | split | simp)
@[simp] theorem State.putClaim_movement (e : Nat) (x : Option Claim) : (s.putClaim e x).movement = s.movement := by
  unfold State.putClaim; split
  · rfl
  · repeat' (first | split | simp)
@[simp] theorem State.putClaim_links (e : Nat) (x : Option Claim) : (s.putClaim e x).links = s.links := by
  unfold State.putClaim; split
  · rfl
  · repeat' (first | split | simp)
@[simp] theorem State.putClaim_boundaries (e : Nat) (x : Option Claim) : (s.putClaim e x).boundaries = s.boundaries := by
  unfold State.putClaim; split
  · rfl
  · repeat' (first | split | simp)
@[simp] theorem State.putClaim_su (e : Nat) (x : Option Claim) : (s.putClaim e x).su = s.su := by
  unfold State.putClaim; split
  · rfl
  · repeat' (first | split | simp)
@[simp] theorem State.putClaim_host (e : Nat) (x : Option Claim) : (s.putClaim e x).host = s.host := by
  unfold State.putClaim; split
  · rfl
  · repeat' (first | split | simp)
@[simp] theorem State.putClaim_choices (e : Nat) (x : Option Claim) : (s.putClaim e x).choices = s.choices := by
  unfold State.putClaim; split
  · rfl
  · repeat' (first | split | simp)
@[simp] theorem State.putClaim_pending (e : Nat) (x : Option Claim) : (s.putClaim e x).pending = s.pending := by
  unfold State.putClaim; split
  · rfl
  · repeat' (first | split | simp)
@[simp] theorem State.putClaim_inputs (e : Nat) (x : Option Claim) : (s.putClaim e x).inputs = s.inputs := by
  unfold State.putClaim; split
  · rfl
  · repeat' (first | split | simp)
/-- The record written reads back, and every other one is as before. -/
theorem State.putClaim_claim (e : Nat) (x : Option Claim) (k : Nat) : (s.putClaim e x).claim k = if k = e then x else s.claim k := by
  unfold State.putClaim; split
  · split <;> simp_all
  · cases x <;> repeat' (first | split | simp_all [State.claim, Table.find_put, Table.find_drop])
/-- A claim's change notes the element (R64). -/
theorem State.putClaim_work (e : Nat) (x : Option Claim) : (s.putClaim e x).work =
    s.work ++ (if s.claim e ≠ x then [.claim e] else []) := by
  unfold State.putClaim; split <;> simp_all

end Sys2Proof.Machine
end

