-- ==== Sys2Proof/Laws/Keeps.lean ====
section
/-! SUPPORT. What the blocks leave alone. `Calm s t`: from `s` to `t` device time, the configuration, the waiting commands and the
host link's queues stand, ENABLE_OUT still agrees with the mode, and the report queue has grown at its tail without repeats.
`Steady s t`: beyond that, the mode has not been resumed or reconfigured.
`Keeps s t`: beyond that, what the host reported of the field stands, and the mode has stayed or grown stricter. Everything that
happens while an event settles is a `Keeps`. -/

namespace Sys2Proof.Machine

/-- What every writer of the blocks leaves alone. -/
structure Calm (s t : State) : Prop where
  time : t.time = s.time
  cfg : t.cfg = s.cfg
  pending : t.pending = s.pending
  inputs : t.inputs = s.inputs
  counters : t.host.counters = s.host.counters
  requests : t.host.requests = s.host.requests
  replies : t.host.replies = s.host.replies
  line : t.host.line = s.host.line
  enable : s.enableAgrees → t.enableAgrees
  distinct : s.reportsDistinct → t.reportsDistinct
  appended : s.reports <+: t.reports

/-- The mode after any event but a resumption, a configuration or a restart: the same, SAFE_HOLD, or RESTRICTED from NORMAL or STARTUP
(R156, R174). -/
def Mode.moves (m n : Mode) : Prop := n = m ∨ n = .safeHold ∨ (m = .normal ∨ m = .startup) ∧ n = .restricted

/-- What every event but a resumption, a configuration or a restart leaves alone. -/
structure Steady (s t : State) : Prop extends Calm s t where
  mode : s.su.mode.moves t.su.mode

/-- The mode after a cascade: the same, SAFE_HOLD, or RESTRICTED from NORMAL (R156). -/
def Mode.stricter (m n : Mode) : Prop := n = m ∨ n = .safeHold ∨ m = .normal ∧ n = .restricted

/-- The fault kinds whose cause stands on what the host reported of the field, or on the host's silence: no cascade ends it. -/
def FaultKind.fromHost : FaultKind → Bool
  | .signalWrongSide | .unexpectedOccupancy | .sectionDisturbed | .hostSilent | .hostSilentLong => true
  | _ => false

/-- What the cascade of an event leaves alone. -/
structure Keeps (s t : State) : Prop where
  steady : Steady s t
  host : t.host = s.host
  points : t.field.points = s.field.points
  supplies : t.field.supplies = s.field.supplies
  outstanding : t.field.outstanding = s.field.outstanding
  held : ∀ e, (t.sect e).held = (s.sect e).held
  latest : ∀ e, (t.sect e).latest = (s.sect e).latest
  occupiedAt : ∀ e, (t.sect e).occupiedAt = (s.sect e).occupiedAt
  clearedAt : ∀ e, (t.sect e).clearedAt = (s.sect e).clearedAt
  proving : ∀ g, (t.signal g).proving = (s.signal g).proving
  silenceFirst : t.su.silenceFirst = s.su.silenceFirst
  silenceSecond : t.su.silenceSecond = s.su.silenceSecond
  mode : s.su.mode.stricter t.su.mode
  causes : ∀ k sub, k.fromHost = true → s.causeHolds k sub = true → (k, sub) ∈ s.su.causes → (k, sub) ∈ t.su.causes

variable {s t u : State}

theorem Mode.stricter_refl (m : Mode) : m.stricter m := .inl rfl

theorem Mode.stricter_trans {a b c : Mode} (h : a.stricter b) (k : b.stricter c) : a.stricter c := by
  unfold Mode.stricter at *
  rcases h with rfl | rfl | ⟨rfl, rfl⟩ <;> rcases k with rfl | rfl | ⟨h, rfl⟩ <;> simp_all

theorem Mode.moves_trans {a b c : Mode} (h : a.moves b) (k : b.moves c) : a.moves c := by
  unfold Mode.moves at *
  rcases h with rfl | rfl | ⟨h, rfl⟩ <;> rcases k with rfl | rfl | ⟨k, rfl⟩ <;> simp_all

theorem Mode.stricter_moves {a b : Mode} (h : a.stricter b) : a.moves b := by
  unfold Mode.stricter Mode.moves at *
  tauto

theorem Calm.refl (s : State) : Calm s s :=
  ⟨rfl, rfl, rfl, rfl, rfl, rfl, rfl, rfl, id, id, List.prefix_refl _⟩

theorem Calm.trans (h : Calm s t) (k : Calm t u) : Calm s u where
  time := k.time.trans h.time
  cfg := k.cfg.trans h.cfg
  pending := k.pending.trans h.pending
  inputs := k.inputs.trans h.inputs
  counters := k.counters.trans h.counters
  requests := k.requests.trans h.requests
  replies := k.replies.trans h.replies
  line := k.line.trans h.line
  enable := k.enable ∘ h.enable
  distinct := k.distinct ∘ h.distinct
  appended := h.appended.trans k.appended

theorem Steady.refl (s : State) : Steady s s := ⟨.refl s, .inl rfl⟩
theorem Steady.trans (h : Steady s t) (k : Steady t u) : Steady s u :=
  ⟨h.toCalm.trans k.toCalm, Mode.moves_trans h.mode k.mode⟩

theorem Keeps.refl (s : State) : Keeps s s :=
  ⟨.refl s, rfl, rfl, rfl, rfl, fun _ => rfl, fun _ => rfl, fun _ => rfl, fun _ => rfl, fun _ => rfl, rfl, rfl, .inl rfl,
    fun _ _ _ _ h => h⟩

/-- The causes that stand on the host's reports hold after a cascade as before it. -/
theorem Keeps.causeHolds (h : Keeps s t) {k : FaultKind} {sub : Subject} (hk : k.fromHost = true) :
    t.causeHolds k sub = s.causeHolds k sub := by
  cases k <;> simp only [FaultKind.fromHost, Bool.false_eq_true] at hk
  all_goals cases sub <;>
    simp only [State.causeHolds, State.stopProven, State.isOccupied, State.isClear, h.held, h.proving]

theorem Keeps.trans (h : Keeps s t) (k : Keeps t u) : Keeps s u where
  steady := h.steady.trans k.steady
  host := k.host.trans h.host
  points := k.points.trans h.points
  supplies := k.supplies.trans h.supplies
  outstanding := k.outstanding.trans h.outstanding
  held := fun e => (k.held e).trans (h.held e)
  latest := fun e => (k.latest e).trans (h.latest e)
  occupiedAt := fun e => (k.occupiedAt e).trans (h.occupiedAt e)
  clearedAt := fun e => (k.clearedAt e).trans (h.clearedAt e)
  proving := fun e => (k.proving e).trans (h.proving e)
  silenceFirst := k.silenceFirst.trans h.silenceFirst
  silenceSecond := k.silenceSecond.trans h.silenceSecond
  mode := Mode.stricter_trans h.mode k.mode
  causes := fun f sub hf hs hm => k.causes f sub hf (by rw [h.causeHolds hf]; exact hs) (h.causes f sub hf hs hm)

/-! ### The fields a cascade may write -/

/-- A state that differs only in fields every writer may write, its report queue having grown as a mark lets it grow. -/
theorem Calm.of_fields (h : Calm s t) (time : u.time = t.time) (cfg : u.cfg = t.cfg) (pending : u.pending = t.pending)
    (inputs : u.inputs = t.inputs) (host : u.host = t.host) (su : u.su = t.su) (reports : u.reports = t.reports ∨ ∃ x, x ∉ t.reports ∧ u.reports = t.reports ++ [x]) :
    Calm s u where
  time := time.trans h.time
  cfg := cfg.trans h.cfg
  pending := pending.trans h.pending
  inputs := inputs.trans h.inputs
  counters := by rw [host]; exact h.counters
  requests := by rw [host]; exact h.requests
  replies := by rw [host]; exact h.replies
  line := by rw [host]; exact h.line
  enable := fun k => by have := h.enable k; unfold State.enableAgrees at *; rw [su]; exact this
  distinct := fun k => by
    have := h.distinct k
    unfold State.reportsDistinct at *
    rcases reports with r | ⟨x, hx, r⟩ <;> rw [r]
    · exact this
    · exact List.nodup_append.mpr ⟨this, by simp, fun a ha b hb hab => hx (by simp_all)⟩
  appended := by
    rcases reports with r | ⟨x, -, r⟩ <;> rw [r]
    · exact h.appended
    · exact h.appended.trans (List.prefix_append _ _)

/-- The same for `Steady`. -/
theorem Steady.of_fields (h : Steady s t) (time : u.time = t.time) (cfg : u.cfg = t.cfg) (pending : u.pending = t.pending)
    (inputs : u.inputs = t.inputs) (host : u.host = t.host) (su : u.su = t.su) (reports : u.reports = t.reports ∨ ∃ x, x ∉ t.reports ∧ u.reports = t.reports ++ [x]) :
    Steady s u := ⟨h.toCalm.of_fields time cfg pending inputs host su reports, by rw [su]; exact h.mode⟩

/-- The same for `Keeps`: no field of the field image but marks and withdrawal timers is written. -/
theorem Keeps.of_fields (h : Keeps s t) (time : u.time = t.time) (cfg : u.cfg = t.cfg) (pending : u.pending = t.pending)
    (inputs : u.inputs = t.inputs) (host : u.host = t.host) (su : u.su = t.su) (field : u.field = t.field)
    (reports : u.reports = t.reports ∨ ∃ x, x ∉ t.reports ∧ u.reports = t.reports ++ [x]) : Keeps s u where
  steady := h.steady.of_fields time cfg pending inputs host su reports
  host := host.trans h.host
  points := by rw [field]; exact h.points
  supplies := by rw [field]; exact h.supplies
  outstanding := by rw [field]; exact h.outstanding
  held := fun e => by have := h.held e; simp only [State.sect, field] at *; exact this
  latest := fun e => by have := h.latest e; simp only [State.sect, field] at *; exact this
  occupiedAt := fun e => by have := h.occupiedAt e; simp only [State.sect, field] at *; exact this
  clearedAt := fun e => by have := h.clearedAt e; simp only [State.sect, field] at *; exact this
  proving := fun e => by have := h.proving e; simp only [State.signal, field] at *; exact this
  silenceFirst := by rw [su]; exact h.silenceFirst
  silenceSecond := by rw [su]; exact h.silenceSecond
  mode := by rw [su]; exact h.mode
  causes := by rw [su]; exact h.causes

theorem Calm.forEach {α : Type} {l : List α} {f : α → State → State} (hf : ∀ a t, Calm s t → Calm s (f a t))
    (h : Calm s t) : Calm s (t.forEach l f) := by
  unfold State.forEach
  induction l generalizing t with
  | nil => exact h
  | cons a l ih => exact ih (hf a t h)

theorem Steady.forEach {α : Type} {l : List α} {f : α → State → State} (hf : ∀ a t, Steady s t → Steady s (f a t))
    (h : Steady s t) : Steady s (t.forEach l f) := by
  unfold State.forEach
  induction l generalizing t with
  | nil => exact h
  | cons a l ih => exact ih (hf a t h)

theorem Keeps.forEach {α : Type} {l : List α} {f : α → State → State} (hf : ∀ a t, Keeps s t → Keeps s (f a t))
    (h : Keeps s t) : Keeps s (t.forEach l f) := by
  unfold State.forEach
  induction l generalizing t with
  | nil => exact h
  | cons a l ih => exact ih (hf a t h)

/-! ### The named writers -/

theorem Keeps.mark (h : Keeps s t) {sub : Subject} : Keeps s (t.mark sub) :=
  h.of_fields (by simp) (by simp) (by simp) (by simp) (by simp) (by simp) (by simp)
    ((t.mark_reports_cases sub).imp_right fun k => ⟨sub, k⟩)

theorem Keeps.note (h : Keeps s t) {w : Work} : Keeps s (t.note w) := h.of_fields rfl rfl rfl rfl rfl rfl rfl (.inl rfl)
theorem Keeps.putLink (h : Keeps s t) {l : Nat} {x : Link} : Keeps s (t.putLink l x) :=
  h.of_fields rfl rfl rfl rfl rfl rfl rfl (.inl rfl)
theorem Keeps.updLink (h : Keeps s t) {l : Nat} {f : Link → Link} : Keeps s (t.updLink l f) := h.putLink
theorem Keeps.choose (h : Keeps s t) : Keeps s t.choose.2 := h.of_fields rfl rfl rfl rfl rfl rfl rfl (.inl rfl)
theorem Keeps.noWork (h : Keeps s t) : Keeps s { t with work := [] } := h.of_fields rfl rfl rfl rfl rfl rfl rfl (.inl rfl)
theorem Keeps.locking (h : Keeps s t) {x : Locking} : Keeps s { t with locking := x } :=
  h.of_fields rfl rfl rfl rfl rfl rfl rfl (.inl rfl)
theorem Keeps.claims (h : Keeps s t) {x : Table Claim} : Keeps s { t with claims := x } :=
  h.of_fields rfl rfl rfl rfl rfl rfl rfl (.inl rfl)
theorem Keeps.movement (h : Keeps s t) {x : PointMovement} : Keeps s { t with movement := x } :=
  h.of_fields rfl rfl rfl rfl rfl rfl rfl (.inl rfl)
theorem Keeps.boundaries (h : Keeps s t) {x : Table Boundary} : Keeps s { t with boundaries := x } :=
  h.of_fields rfl rfl rfl rfl rfl rfl rfl (.inl rfl)

theorem Keeps.putSlot (h : Keeps s t) {i : Nat} {x : Slot} : Keeps s (t.putSlot i x) := by
  unfold State.putSlot; dsimp only
  repeat' (first | exact h | split | exact h.locking.mark | apply Keeps.note)
theorem Keeps.updSlot (h : Keeps s t) {i : Nat} {f : Slot → Slot} : Keeps s (t.updSlot i f) := h.putSlot
theorem Keeps.updRelease (h : Keeps s t) {i : Nat} {f : ReleaseRecord → ReleaseRecord} : Keeps s (t.updRelease i f) := h.updSlot
theorem Keeps.putRequirement (h : Keeps s t) {i j : Nat} {q : Requirement} : Keeps s (t.putRequirement i j q) := h.updSlot.note
theorem Keeps.putLock (h : Keeps s t) {e : Nat} {l : Option Lock} : Keeps s (t.putLock e l) := by
  unfold State.putLock; dsimp only
  repeat' (first | exact h | split | exact h.locking.mark | apply Keeps.note)
theorem Keeps.putPermission (h : Keeps s t) {g : Nat} {p : Permission} : Keeps s (t.putPermission g p) := by
  unfold State.putPermission; split
  exacts [h, h.locking.mark.note]
theorem Keeps.putClaim (h : Keeps s t) {e : Nat} {c : Option Claim} : Keeps s (t.putClaim e c) := by
  unfold State.putClaim; split
  exacts [h, h.claims.mark.note]
theorem Keeps.putThrow (h : Keeps s t) {p : Nat} {x : Throw} : Keeps s (t.putThrow p x) := by
  unfold State.putThrow; dsimp only
  repeat' (first | exact h | exact h.movement.mark | apply Keeps.mark | apply Keeps.note | split)
theorem Keeps.putGroup (h : Keeps s t) {g : Nat} {x : PowerGroup} : Keeps s (t.putGroup g x) := by
  unfold State.putGroup; split
  exacts [h, h.movement.mark]
theorem Keeps.putBoundary (h : Keeps s t) {e : Nat} {b : Boundary} : Keeps s (t.putBoundary e b) := by
  unfold State.putBoundary; dsimp only
  repeat' (first | exact h | split | exact h.boundaries.mark.note)
theorem Keeps.updBoundary (h : Keeps s t) {e : Nat} {f : Boundary → Boundary} : Keeps s (t.updBoundary e f) := h.putBoundary

/-- A passage mark may be written; the rest of a section's record stands. -/
theorem Keeps.putMark (h : Keeps s t) {e : Nat} {m : PassageMark} : Keeps s (t.putSection e { t.sect e with mark := m }) where
  steady := h.steady.trans (by
    unfold State.putSection; split
    · exact .refl t
    · exact (((Keeps.refl t).steady).of_fields (by simp) (by simp) (by simp) (by simp) (by simp) (by simp)
        ((State.mark_reports_cases _ _).imp_right fun k => ⟨_, k⟩)))
  host := by simpa using h.host
  points := by simpa using h.points
  supplies := by simpa using h.supplies
  outstanding := by simpa using h.outstanding
  held := fun k => by rw [State.putSection_sect]; split <;> simp_all [h.held]
  latest := fun k => by rw [State.putSection_sect]; split <;> simp_all [h.latest]
  occupiedAt := fun k => by rw [State.putSection_sect]; split <;> simp_all [h.occupiedAt]
  clearedAt := fun k => by rw [State.putSection_sect]; split <;> simp_all [h.clearedAt]
  proving := fun k => by have := h.proving k; simp only [State.signal, State.putSection_signals] at *; exact this
  silenceFirst := by simpa using h.silenceFirst
  silenceSecond := by simpa using h.silenceSecond
  mode := by simpa using h.mode
  causes := by simpa using h.causes

/-- A withdrawal timer may be written; a signal's proving stands. -/
theorem Keeps.putWithdrawal (h : Keeps s t) {g : Nat} {w : Timer} : Keeps s (t.putSignal g { t.signal g with withdrawal := w }) where
  steady := h.steady.trans (by
    unfold State.putSignal; split
    · exact .refl t
    · exact (((Keeps.refl t).steady).of_fields (by simp) (by simp) (by simp) (by simp) (by simp) (by simp)
        (by simpa using (State.mark_reports_cases _ _).imp_right fun k => ⟨_, k⟩)))
  host := by simpa using h.host
  points := by simpa using h.points
  supplies := by simpa using h.supplies
  outstanding := by simpa using h.outstanding
  held := fun k => by have := h.held k; simp only [State.sect, State.putSignal_sections] at *; exact this
  latest := fun k => by have := h.latest k; simp only [State.sect, State.putSignal_sections] at *; exact this
  occupiedAt := fun k => by have := h.occupiedAt k; simp only [State.sect, State.putSignal_sections] at *; exact this
  clearedAt := fun k => by have := h.clearedAt k; simp only [State.sect, State.putSignal_sections] at *; exact this
  proving := fun k => by rw [State.putSignal_signal]; split <;> simp_all [h.proving]
  silenceFirst := by simpa using h.silenceFirst
  silenceSecond := by simpa using h.silenceSecond
  mode := by simpa using h.mode
  causes := by simpa using h.causes

/-! ### The Supervision Unit -/

/-- The fault list, the overflow flag and the causes may be written. -/
theorem Keeps.supervision (h : Keeps s t) {f : Table FaultRecord} {o : Bool} {c : List (FaultKind × Subject)}
    (hc : ∀ k sub, k.fromHost = true → t.causeHolds k sub = true → (k, sub) ∈ t.su.causes → (k, sub) ∈ c) :
    Keeps s { t with su := { t.su with faults := f, overflow := o, causes := c } } where
  steady := { h.steady with enable := fun k => h.steady.enable k }
  host := h.host
  points := h.points
  supplies := h.supplies
  outstanding := h.outstanding
  held := h.held
  latest := h.latest
  occupiedAt := h.occupiedAt
  clearedAt := h.clearedAt
  proving := h.proving
  silenceFirst := h.silenceFirst
  silenceSecond := h.silenceSecond
  mode := h.mode
  causes := fun k sub hk hs hm => hc k sub hk (by rw [h.causeHolds hk]; exact hs) (h.causes k sub hk hs hm)

/-- The mode may be written with ENABLE_OUT, when it grows stricter. -/
theorem Keeps.writeMode (h : Keeps s t) {m : Mode} (hm : t.su.mode.stricter m) :
    Keeps s { t with su := { t.su with mode := m, enableOut := m.enabled } } where
  steady := { h.steady with enable := fun _ => rfl, mode := Mode.moves_trans h.steady.mode (Mode.stricter_moves hm) }
  host := h.host
  points := h.points
  supplies := h.supplies
  outstanding := h.outstanding
  held := h.held
  latest := h.latest
  occupiedAt := h.occupiedAt
  clearedAt := h.clearedAt
  proving := h.proving
  silenceFirst := h.silenceFirst
  silenceSecond := h.silenceSecond
  mode := Mode.stricter_trans h.mode hm
  causes := h.causes

theorem Keeps.unqueuePoint (h : Keeps s t) {p : Nat} : Keeps s (t.unqueuePoint p) := by
  unfold State.unqueuePoint; split
  exacts [h.putThrow, h]
theorem Keeps.emptyThrowQueues (h : Keeps s t) : Keeps s t.emptyThrowQueues :=
  .forEach (fun _ _ k => k.putGroup) (.forEach (fun _ _ k => k.unqueuePoint) h)
theorem Keeps.setMode (h : Keeps s t) {m : Mode} (hm : t.su.mode.stricter m) : Keeps s (t.setMode m) := by
  unfold State.setMode; dsimp only
  split
  · exact h
  · split
    exacts [(h.writeMode hm).mark.note.emptyThrowQueues, (h.writeMode hm).mark.note]
theorem Keeps.setOverflow (h : Keeps s t) {b : Bool} : Keeps s (t.setOverflow b) := by
  unfold State.setOverflow; split
  · exact h
  · exact (h.supervision (f := t.su.faults) (c := t.su.causes) fun _ _ _ _ h => h).mark
theorem Keeps.putFault (h : Keeps s t) {i : Nat} {r : Option FaultRecord} : Keeps s (t.putFault i r) :=
  (h.supervision (o := t.su.overflow) (c := t.su.causes) fun _ _ _ _ h => h).mark
theorem Keeps.clearRecord (h : Keeps s t) {k : FaultKind} {sub : Subject} : Keeps s (t.clearRecord k sub) := by
  unfold State.clearRecord
  repeat' (first | exact h | exact h.putFault | split)
theorem Keeps.causeGone (h : Keeps s t) {k : FaultKind} {sub : Subject} (hk : k.fromHost = true → t.causeHolds k sub = false) :
    Keeps s (t.causeGone k sub) := by
  unfold State.causeGone; dsimp only
  have := (h.supervision (f := t.su.faults) (o := t.su.overflow) (c := t.su.causes.filter (fun c => c != (k, sub)))
    fun f x hf hx hm => List.mem_filter.mpr ⟨hm, by
      by_cases e : (f, x) = (k, sub)
      · obtain ⟨rfl, rfl⟩ := Prod.mk.inj e
        rw [hk hf] at hx; cases hx
      · simpa using e⟩).clearRecord (k := k) (sub := sub)
  repeat' (first | exact h | exact this | exact this.note | split)
theorem Keeps.reassess (h : Keeps s t) {sub : Subject} : Keeps s (t.reassess sub) := by
  refine .forEach (fun c u k => ?_) h
  split
  · exact k
  · rename_i hc; exact k.causeGone fun _ => by simpa using hc
theorem Keeps.recordRaise (h : Keeps s t) {k : FaultKind} {sub : Subject} : Keeps s (t.recordRaise k sub).1 := by
  unfold State.recordRaise
  repeat' (first | exact h.putFault | exact h.setOverflow | split | dsimp only)
theorem Keeps.judgeMode (h : Keeps s t) {c : FaultClass} {o : Bool} : Keeps s (t.judgeMode c o) := by
  unfold State.judgeMode; split
  · exact h.setMode (.inr (.inl rfl))
  · split
    · rename_i k; exact h.setMode (.inr (.inr ⟨k.2, rfl⟩))
    · exact h
theorem Keeps.raise (h : Keeps s t) {k : FaultKind} {sub : Subject} {b : Bool} (hk : k.fromHost = true → b = true) :
    Keeps s (t.raise k sub b) := by
  unfold State.raise; dsimp only
  have := (h.supervision (f := t.su.faults) (o := t.su.overflow)
    (c := if (k, sub) ∈ t.su.causes then t.su.causes else t.su.causes ++ [(k, sub)])
    fun _ _ _ _ hm => by split <;> simp [hm]).recordRaise (k := k) (sub := sub)
  refine Keeps.judgeMode ?_
  cases b
  · have := this.causeGone (k := k) (sub := sub) fun hf => absurd (hk hf) (by simp)
    simp only [Bool.false_eq_true, if_false]
    split
    exacts [this.note, this]
  · simp only [↓reduceIte]
    split
    exacts [this.note, this]
theorem Keeps.raiseNow (h : Keeps s t) {k : FaultKind} {sub : Subject} : Keeps s (t.raiseNow k sub) := h.raise fun _ => rfl

end Sys2Proof.Machine
end

