-- ==== Sys2Proof/Laws/Cascade.lean ====
section
/-! SUPPORT. Every shared operation of the blocks, and the cascade of an event with them, is a `Keeps`. -/

namespace Sys2Proof.Machine

set_option linter.unusedTactic false
set_option linter.unreachableTactic false

variable {σ τ : State}

/-! ### Points -/

theorem Keeps.leaveQueue (h : Keeps σ τ) {p : Nat} : Keeps σ (τ.leaveQueue p) := by
  unfold State.leaveQueue; try dsimp only
  repeat' (first | with_reducible assumption | with_reducible apply Keeps.putGroup | split | dsimp only)
theorem Keeps.joinQueue (h : Keeps σ τ) {p : Nat} : Keeps σ (τ.joinQueue p) := by
  unfold State.joinQueue; try dsimp only
  repeat' (first | with_reducible assumption | with_reducible apply Keeps.putGroup | split | dsimp only)
theorem Keeps.startPoint (h : Keeps σ τ) {g p : Nat} : Keeps σ (τ.startPoint g p) := by
  unfold State.startPoint; try dsimp only
  repeat' (first
    | with_reducible assumption | with_reducible apply Keeps.putGroup | with_reducible apply Keeps.putThrow | split
    | dsimp only)
theorem Keeps.arbiter (h : Keeps σ τ) {g n : Nat} : Keeps σ (State.arbiter g n τ) := by
  induction n generalizing τ with
  | zero => exact h
  | succ n ih =>
    unfold State.arbiter
    repeat' (first | with_reducible exact h | exact ih h.startPoint | split)
theorem Keeps.examineGroup (h : Keeps σ τ) {g : Nat} : Keeps σ (τ.examineGroup g) := h.arbiter
theorem Keeps.stopLossTimer (h : Keeps σ τ) {g : Nat} : Keeps σ (τ.stopLossTimer g) := by
  unfold State.stopLossTimer; try dsimp only
  repeat' (first | with_reducible assumption | with_reducible apply Keeps.putGroup | split | dsimp only)
theorem Keeps.placeFreed (h : Keeps σ τ) {p : Nat} : Keeps σ (τ.placeFreed p) := by
  unfold State.placeFreed; try dsimp only
  repeat' (first
    | with_reducible assumption | with_reducible apply Keeps.stopLossTimer | with_reducible apply Keeps.examineGroup
    | split | dsimp only)
theorem Keeps.takeOrder (h : Keeps σ τ) {p : Nat} {target : Position} : Keeps σ (τ.takeOrder p target) := by
  unfold State.takeOrder; try dsimp only
  repeat' (first
    | with_reducible assumption | with_reducible apply Keeps.putThrow | with_reducible apply Keeps.joinQueue
    | with_reducible apply Keeps.examineGroup | split | dsimp only)
theorem Keeps.faultPoint (h : Keeps σ τ) {p : Nat} {reason : ThrowFault} {order : Option Order} : Keeps σ (τ.faultPoint p reason order) := by
  unfold State.faultPoint; try dsimp only
  repeat' (first
    | with_reducible assumption | with_reducible apply Keeps.putThrow | with_reducible apply Keeps.note | split
    | dsimp only)
theorem Keeps.leaveFaulted (h : Keeps σ τ) {p : Nat} : Keeps σ (τ.leaveFaulted p) := by
  unfold State.leaveFaulted; try dsimp only
  repeat' (first
    | with_reducible assumption | with_reducible apply Keeps.putThrow | with_reducible apply Keeps.reassess | split
    | dsimp only)
theorem Keeps.completeThrow (h : Keeps σ τ) {p : Nat} : Keeps σ (τ.completeThrow p) := by
  unfold State.completeThrow; try dsimp only
  repeat' (first
    | with_reducible assumption | with_reducible apply Keeps.putThrow | with_reducible apply Keeps.placeFreed
    | with_reducible apply Keeps.leaveQueue | split | dsimp only)
theorem Keeps.examineOrder (h : Keeps σ τ) {p : Nat} : Keeps σ (τ.examineOrder p) := by
  unfold State.examineOrder; try dsimp only
  repeat' (first
    | with_reducible assumption | with_reducible apply Keeps.putThrow | with_reducible apply Keeps.leaveQueue
    | with_reducible apply Keeps.leaveFaulted | split | dsimp only)
theorem Keeps.loseDetection (h : Keeps σ τ) {p : Nat} : Keeps σ (τ.loseDetection p) := by
  unfold State.loseDetection; try dsimp only
  repeat' (first
    | with_reducible assumption | with_reducible apply Keeps.faultPoint | with_reducible apply Keeps.leaveQueue
    | with_reducible apply Keeps.placeFreed | with_reducible apply Keeps.putThrow
    | with_reducible apply Keeps.reassess | split | dsimp only)
theorem Keeps.takeDetection (h : Keeps σ τ) {p : Nat} : Keeps σ (τ.takeDetection p) := by
  unfold State.takeDetection; try dsimp only
  repeat' (first
    | with_reducible assumption | with_reducible apply Keeps.loseDetection | with_reducible apply Keeps.completeThrow
    | with_reducible apply Keeps.leaveFaulted | split | dsimp only)
theorem Keeps.pausePoint (h : Keeps σ τ) {p : Nat} : Keeps σ (τ.pausePoint p) := by
  unfold State.pausePoint; try dsimp only
  repeat' (first | with_reducible assumption | with_reducible apply Keeps.putThrow | split | dsimp only)
theorem Keeps.resumePoint (h : Keeps σ τ) {p : Nat} : Keeps σ (τ.resumePoint p) := by
  unfold State.resumePoint; try dsimp only
  repeat' (first | with_reducible assumption | with_reducible apply Keeps.putThrow | split | dsimp only)
theorem Keeps.supplyLost (h : Keeps σ τ) {g : Nat} : Keeps σ (τ.supplyLost g) := by
  unfold State.supplyLost; try dsimp only
  repeat' (first
    | with_reducible assumption | with_reducible refine Keeps.forEach (fun _ _ _ => ?_) ?_
    | with_reducible apply Keeps.pausePoint | with_reducible apply Keeps.putGroup | split | dsimp only)
theorem Keeps.supplyReturned (h : Keeps σ τ) {g : Nat} : Keeps σ (τ.supplyReturned g) := by
  unfold State.supplyReturned; try dsimp only
  repeat' (first
    | with_reducible assumption | with_reducible refine Keeps.forEach (fun _ _ _ => ?_) ?_
    | with_reducible apply Keeps.resumePoint | with_reducible apply Keeps.putGroup
    | with_reducible apply Keeps.examineGroup | split | dsimp only)
theorem Keeps.throwTimeout (h : Keeps σ τ) {p : Nat} : Keeps σ (τ.throwTimeout p) := by
  unfold State.throwTimeout; try dsimp only
  repeat' (first
    | with_reducible assumption | with_reducible apply Keeps.faultPoint | with_reducible apply Keeps.raiseNow
    | with_reducible apply Keeps.placeFreed | split | dsimp only)
theorem Keeps.supplyFaultPoint (h : Keeps σ τ) {p : Nat} : Keeps σ (τ.supplyFaultPoint p) := by
  unfold State.supplyFaultPoint; try dsimp only
  repeat' (first | with_reducible assumption | with_reducible apply Keeps.faultPoint | split | dsimp only)
theorem Keeps.supplyTimeout (h : Keeps σ τ) {g : Nat} : Keeps σ (τ.supplyTimeout g) := by
  unfold State.supplyTimeout; try dsimp only
  repeat' (first
    | with_reducible assumption | with_reducible refine Keeps.forEach (fun _ _ _ => ?_) ?_
    | with_reducible apply Keeps.putGroup | with_reducible apply Keeps.supplyFaultPoint
    | with_reducible apply Keeps.raiseNow | split | dsimp only)
theorem Keeps.reorderLocked (h : Keeps σ τ) {p : Nat} : Keeps σ (τ.reorderLocked p) := by
  unfold State.reorderLocked; try dsimp only
  repeat' (first | with_reducible assumption | with_reducible apply Keeps.takeOrder | split | dsimp only)

/-! ### Ports -/

theorem Keeps.enterProving (h : Keeps σ τ) {l : Nat} : Keeps σ (τ.enterProving l) := by
  unfold State.enterProving; try dsimp only
  repeat' (first | with_reducible assumption | with_reducible apply Keeps.updLink | split | dsimp only)
theorem Keeps.goDown (h : Keeps σ τ) {l : Nat} : Keeps σ (τ.goDown l) := by
  unfold State.goDown; try dsimp only
  repeat' (first
    | with_reducible assumption | with_reducible apply Keeps.updLink | with_reducible apply Keeps.raiseNow
    | with_reducible apply Keeps.mark | with_reducible apply Keeps.note | with_reducible apply Keeps.enterProving
    | split | dsimp only)
theorem Keeps.place (h : Keeps σ τ) {l : Nat} {t : Telegram} : Keeps σ (τ.place l t) := by
  unfold State.place; try dsimp only
  repeat' (first
    | with_reducible assumption | with_reducible apply Keeps.goDown | with_reducible apply Keeps.updLink | split
    | dsimp only)
theorem Keeps.hand (h : Keeps σ τ) {l : Nat} {t : Telegram} : Keeps σ (τ.hand l t) := by
  unfold State.hand; try dsimp only
  repeat' (first | with_reducible assumption | with_reducible apply Keeps.place | split | dsimp only)
theorem Keeps.placeProbe (h : Keeps σ τ) {l : Nat} : Keeps σ (τ.placeProbe l) := by
  unfold State.placeProbe; try dsimp only
  repeat' (first
    | with_reducible assumption | with_reducible apply Keeps.goDown | with_reducible apply Keeps.updLink | split
    | dsimp only)
theorem Keeps.placeState (h : Keeps σ τ) {l : Nat} : Keeps σ (τ.placeState l) := by
  unfold State.placeState; try dsimp only
  repeat' (first | with_reducible assumption | with_reducible apply Keeps.place | split | dsimp only)
theorem Keeps.telegramLeft (h : Keeps σ τ) {l : Nat} : Keeps σ (τ.telegramLeft l) := by
  unfold State.telegramLeft; try dsimp only
  repeat' (first | with_reducible assumption | with_reducible apply Keeps.updLink | split | dsimp only)
theorem Keeps.enterUp (h : Keeps σ τ) {l : Nat} : Keeps σ (τ.enterUp l) := by
  unfold State.enterUp; try dsimp only
  repeat' (first
    | with_reducible assumption | with_reducible apply Keeps.updLink | with_reducible apply Keeps.mark
    | with_reducible apply Keeps.reassess | with_reducible apply Keeps.note | with_reducible apply Keeps.placeState
    | split | dsimp only)
theorem Keeps.healthGood (h : Keeps σ τ) {l : Nat} : Keeps σ (τ.healthGood l) := by
  unfold State.healthGood; try dsimp only
  repeat' (first
    | with_reducible assumption | with_reducible apply Keeps.putLink | with_reducible apply Keeps.mark
    | with_reducible apply Keeps.note | split | dsimp only)
theorem Keeps.healthBad (h : Keeps σ τ) {l : Nat} : Keeps σ (τ.healthBad l) := by
  unfold State.healthBad; try dsimp only
  repeat' (first
    | with_reducible assumption | with_reducible apply Keeps.putLink | with_reducible apply Keeps.mark
    | with_reducible apply Keeps.goDown | split | dsimp only)
theorem Keeps.badTelegram (h : Keeps σ τ) {l : Nat} {e : ReceiveError} : Keeps σ (τ.badTelegram l e) := by
  unfold State.badTelegram; try dsimp only
  repeat' (first
    | with_reducible assumption | with_reducible apply Keeps.updLink | with_reducible apply Keeps.healthBad | split
    | dsimp only)
theorem Keeps.unknownTelegram (h : Keeps σ τ) {l : Nat} {seq : Byte} : Keeps σ (τ.unknownTelegram l seq) := by
  unfold State.unknownTelegram; try dsimp only
  repeat' (first | with_reducible assumption | with_reducible apply Keeps.updLink | split | dsimp only)
theorem Keeps.sendTimerExpired (h : Keeps σ τ) {l : Nat} : Keeps σ (τ.sendTimerExpired l) := by
  unfold State.sendTimerExpired; try dsimp only
  repeat' (first
    | with_reducible assumption | with_reducible apply Keeps.updLink | with_reducible apply Keeps.placeProbe
    | with_reducible apply Keeps.placeState | split | dsimp only)
theorem Keeps.missed (h : Keeps σ τ) {l : Nat} : Keeps σ (τ.missed l) := by
  unfold State.missed; try dsimp only
  repeat' (first
    | with_reducible assumption | with_reducible apply Keeps.updLink | with_reducible apply Keeps.healthBad | split
    | dsimp only)
theorem Keeps.signalLost (h : Keeps σ τ) {l : Nat} : Keeps σ (τ.signalLost l) := by
  unfold State.signalLost; try dsimp only
  repeat' (first
    | with_reducible assumption | with_reducible apply Keeps.goDown | with_reducible apply Keeps.updLink | split
    | dsimp only)
theorem Keeps.clearLinkCounters (h : Keeps σ τ) {l : Nat} : Keeps σ (τ.clearLinkCounters l) := by
  unfold State.clearLinkCounters; try dsimp only
  repeat' (first
    | with_reducible assumption | with_reducible apply Keeps.updLink | with_reducible apply Keeps.mark | split
    | dsimp only)

/-! ### Flank -/

theorem Keeps.placeClaim (h : Keeps σ τ) {e : Nat} {q : Required} : Keeps σ (τ.placeClaim e q) := by
  unfold State.placeClaim; try dsimp only
  repeat' (first
    | with_reducible assumption | with_reducible apply Keeps.putClaim | with_reducible apply Keeps.reassess | split
    | dsimp only)
theorem Keeps.removeClaim (h : Keeps σ τ) {e : Nat} : Keeps σ (τ.removeClaim e) := by
  unfold State.removeClaim; try dsimp only
  repeat' (first
    | with_reducible assumption | with_reducible apply Keeps.putClaim | with_reducible apply Keeps.examineOrder
    | with_reducible apply Keeps.reassess | split | dsimp only)
theorem Keeps.setRequirement (h : Keeps σ τ) {i j : Nat} {q : Requirement} : Keeps σ (τ.setRequirement i j q) := by
  unfold State.setRequirement; try dsimp only
  repeat' (first
    | with_reducible assumption | with_reducible apply Keeps.putRequirement | with_reducible apply Keeps.note
    | with_reducible apply Keeps.reassess | split | dsimp only)
theorem Keeps.retireAsk (h : Keeps σ τ) {l r : Nat} : Keeps σ (τ.retireAsk l r) := by
  unfold State.retireAsk; try dsimp only
  repeat' (first | with_reducible assumption | with_reducible apply Keeps.updLink | split | dsimp only)
theorem Keeps.giveUpAsk (h : Keeps σ τ) {i j l : Nat} : Keeps σ (τ.giveUpAsk i j l) := by
  unfold State.giveUpAsk; try dsimp only
  repeat' (first
    | with_reducible assumption | with_reducible apply Keeps.hand | with_reducible apply Keeps.retireAsk | split
    | dsimp only)
theorem Keeps.sendAsk (h : Keeps σ τ) {i j k l element : Nat} {q : Required} : Keeps σ (τ.sendAsk i j k l element q) := by
  unfold State.sendAsk; try dsimp only
  repeat' (first
    | with_reducible assumption | with_reducible apply Keeps.setRequirement | with_reducible apply Keeps.hand | split
    | dsimp only)
theorem Keeps.sendDeferredAsks (h : Keeps σ τ) {l : Nat} : Keeps σ (τ.sendDeferredAsks l) := by
  unfold State.sendDeferredAsks; try dsimp only
  repeat' (first
    | with_reducible assumption | with_reducible refine Keeps.forEach (fun _ _ _ => ?_) ?_
    | with_reducible apply Keeps.sendAsk | split | dsimp only)
theorem Keeps.orderForClaim (h : Keeps σ τ) {p : Nat} {pos : Position} : Keeps σ (τ.orderForClaim p pos) := by
  unfold State.orderForClaim; try dsimp only
  repeat' (first | with_reducible assumption | with_reducible apply Keeps.takeOrder | split | dsimp only)
theorem Keeps.releaseRequirement (h : Keeps σ τ) {i j : Nat} : Keeps σ (τ.releaseRequirement i j) := by
  unfold State.releaseRequirement; try dsimp only
  repeat' (first
    | with_reducible assumption | with_reducible apply Keeps.removeClaim | with_reducible apply Keeps.giveUpAsk
    | with_reducible apply Keeps.setRequirement | split | dsimp only)
theorem Keeps.reorderClaimed (h : Keeps σ τ) {p : Nat} : Keeps σ (τ.reorderClaimed p) := by
  unfold State.reorderClaimed; try dsimp only
  repeat' (first | with_reducible assumption | with_reducible apply Keeps.orderForClaim | split | dsimp only)
theorem Keeps.releaseGiven (h : Keeps σ τ) {l r : Nat} : Keeps σ (τ.releaseGiven l r) := by
  unfold State.releaseGiven; try dsimp only
  repeat' (first
    | with_reducible assumption | with_reducible apply Keeps.updLink | with_reducible apply Keeps.mark
    | with_reducible apply Keeps.removeClaim | split | dsimp only)

/-! ### Handover -/

theorem Keeps.retireOffer (h : Keeps σ τ) {l r e : Nat} : Keeps σ (τ.retireOffer l r e) := by
  unfold State.retireOffer; try dsimp only
  repeat' (first | with_reducible assumption | with_reducible apply Keeps.updLink | split | dsimp only)
theorem Keeps.removeOutgoing (h : Keeps σ τ) {e : Nat} {byRefuse : Bool} : Keeps σ (τ.removeOutgoing e byRefuse) := by
  unfold State.removeOutgoing; try dsimp only
  repeat' (first
    | with_reducible assumption | with_reducible apply Keeps.retireOffer | with_reducible apply Keeps.updBoundary
    | with_reducible apply Keeps.mark | split | dsimp only)
theorem Keeps.handFor (h : Keeps σ τ) {e : Nat} {t : Telegram} : Keeps σ (τ.handFor e t) := by
  unfold State.handFor; try dsimp only
  repeat' (first | with_reducible assumption | with_reducible apply Keeps.hand | split | dsimp only)
theorem Keeps.withdrawOutgoing (h : Keeps σ τ) {e : Nat} : Keeps σ (τ.withdrawOutgoing e) := by
  unfold State.withdrawOutgoing; try dsimp only
  repeat' (first
    | with_reducible assumption | with_reducible apply Keeps.handFor | with_reducible apply Keeps.removeOutgoing
    | split | dsimp only)
theorem Keeps.sendOffer (h : Keeps σ τ) {e i : Nat} {cls : RouteClass} : Keeps σ (τ.sendOffer e i cls) := by
  unfold State.sendOffer; try dsimp only
  repeat' (first
    | with_reducible assumption | with_reducible apply Keeps.updBoundary | with_reducible apply Keeps.mark
    | with_reducible apply Keeps.hand | split | dsimp only)
theorem Keeps.sendDeferredOffers (h : Keeps σ τ) {l : Nat} : Keeps σ (τ.sendDeferredOffers l) := by
  unfold State.sendDeferredOffers; try dsimp only
  repeat' (first
    | with_reducible assumption | with_reducible refine Keeps.forEach (fun _ _ _ => ?_) ?_
    | with_reducible apply Keeps.sendOffer | split | dsimp only)
theorem Keeps.tryAccept (h : Keeps σ τ) {e : Nat} : Keeps σ (τ.tryAccept e) := by
  unfold State.tryAccept; try dsimp only
  repeat' (first
    | with_reducible assumption | with_reducible apply Keeps.updBoundary | with_reducible apply Keeps.updSlot
    | with_reducible apply Keeps.mark | with_reducible apply Keeps.handFor | split | dsimp only)
theorem Keeps.forgetSlot (h : Keeps σ τ) {i : Nat} {entry exit : Option Nat} : Keeps σ (τ.forgetSlot i entry exit) := by
  unfold State.forgetSlot; try dsimp only
  repeat' (first | with_reducible assumption | with_reducible apply Keeps.updBoundary | split | dsimp only)
theorem Keeps.clearBeyond (h : Keeps σ τ) {exit : Option Nat} : Keeps σ (τ.clearBeyond exit) := by
  unfold State.clearBeyond; try dsimp only
  repeat' (first | with_reducible assumption | with_reducible apply Keeps.updBoundary | split | dsimp only)

/-! ### Locking -/

theorem Keeps.placeLock (h : Keeps σ τ) {e i : Nat} {kind : LockKind} {pos : Option Position} : Keeps σ (τ.placeLock e i kind pos) := by
  unfold State.placeLock; try dsimp only
  repeat' (first
    | with_reducible assumption | with_reducible apply Keeps.putLock | with_reducible apply Keeps.reassess | split
    | dsimp only)
theorem Keeps.removeLock (h : Keeps σ τ) {e : Nat} : Keeps σ (τ.removeLock e) := by
  unfold State.removeLock; try dsimp only
  repeat' (first
    | with_reducible assumption | with_reducible apply Keeps.putLock | with_reducible apply Keeps.examineOrder
    | with_reducible apply Keeps.reassess | split | dsimp only)
theorem Keeps.unlock (h : Keeps σ τ) {i e : Nat} : Keeps σ (τ.unlock i e) := by
  unfold State.unlock; try dsimp only
  repeat' (first | with_reducible assumption | with_reducible apply Keeps.removeLock | split | dsimp only)
theorem Keeps.firmLock (h : Keeps σ τ) {i e : Nat} : Keeps σ (τ.firmLock i e) := by
  unfold State.firmLock; try dsimp only
  repeat' (first | with_reducible assumption | with_reducible apply Keeps.putLock | split | dsimp only)
theorem Keeps.setPermission (h : Keeps σ τ) {g : Nat} {p : Permission} : Keeps σ (τ.setPermission g p) := by
  unfold State.setPermission; split
  · exact h
  · exact h.putPermission.putWithdrawal.reassess
theorem Keeps.withdrawPermission (h : Keeps σ τ) {i : Nat} : Keeps σ (τ.withdrawPermission i) := by
  unfold State.withdrawPermission; try dsimp only
  repeat' (first
    | with_reducible assumption | with_reducible apply Keeps.setPermission | with_reducible apply Keeps.updSlot
    | split | dsimp only)
theorem Keeps.disarm (h : Keeps σ τ) {e : Nat} : Keeps σ (τ.disarm e) := h.putMark
theorem Keeps.disarmAll (h : Keeps σ τ) {i : Nat} : Keeps σ (τ.disarmAll i) := by
  unfold State.disarmAll; try dsimp only
  repeat' (first
    | with_reducible assumption | with_reducible refine Keeps.forEach (fun _ _ _ => ?_) ?_
    | with_reducible apply Keeps.disarm | split | dsimp only)
theorem Keeps.vacate (h : Keeps σ τ) {i : Nat} {out : LastOutcome} : Keeps σ (τ.vacate i out) := by
  unfold State.vacate; try dsimp only
  repeat' (first
    | with_reducible assumption | with_reducible refine Keeps.forEach (fun _ _ _ => ?_) ?_
    | with_reducible apply Keeps.putSlot | with_reducible apply Keeps.reassess | with_reducible apply Keeps.disarmAll
    | with_reducible apply Keeps.clearBeyond | with_reducible apply Keeps.unlock
    | with_reducible apply Keeps.releaseRequirement | with_reducible apply Keeps.withdrawOutgoing
    | with_reducible apply Keeps.forgetSlot | split | dsimp only)
theorem Keeps.dropSlot (h : Keeps σ τ) {i : Nat} {reason : DropReason} : Keeps σ (τ.dropSlot i reason) := by
  unfold State.dropSlot; try dsimp only
  repeat' (first | with_reducible assumption | with_reducible apply Keeps.vacate | split | dsimp only)
theorem Keeps.releaseSlot (h : Keeps σ τ) {i : Nat} {reason : ReleaseReason} : Keeps σ (τ.releaseSlot i reason) := by
  unfold State.releaseSlot; try dsimp only
  repeat' (first
    | with_reducible assumption | with_reducible apply Keeps.withdrawPermission | with_reducible apply Keeps.vacate
    | split | dsimp only)
theorem Keeps.orderForPoint (h : Keeps σ τ) {q : PointReq} : Keeps σ (τ.orderForPoint q) := by
  unfold State.orderForPoint; try dsimp only
  repeat' (first | with_reducible assumption | with_reducible apply Keeps.takeOrder | split | dsimp only)
theorem Keeps.firmRequirement (h : Keeps σ τ) {i j : Nat} : Keeps σ (τ.firmRequirement i j) := by
  unfold State.firmRequirement; try dsimp only
  repeat' (first | with_reducible assumption | with_reducible apply Keeps.putRequirement | split | dsimp only)
theorem Keeps.orderForFlank (h : Keeps σ τ) {i j : Nat} : Keeps σ (τ.orderForFlank i j) := by
  unfold State.orderForFlank; try dsimp only
  repeat' (first | with_reducible assumption | with_reducible apply Keeps.orderForPoint | split | dsimp only)
theorem Keeps.commit (h : Keeps σ τ) {i : Nat} : Keeps σ (τ.commit i) := by
  unfold State.commit; try dsimp only
  repeat' (first
    | with_reducible assumption | with_reducible refine Keeps.forEach (fun _ _ _ => ?_) ?_
    | with_reducible apply Keeps.firmLock | with_reducible apply Keeps.firmRequirement
    | with_reducible apply Keeps.orderForPoint | with_reducible apply Keeps.orderForFlank
    | with_reducible apply Keeps.updSlot | split | dsimp only)
theorem Keeps.openSlot (h : Keeps σ τ) {i : Nat} : Keeps σ (τ.openSlot i) := by
  unfold State.openSlot; try dsimp only
  repeat' (first
    | with_reducible assumption | with_reducible apply Keeps.updSlot | with_reducible apply Keeps.setPermission
    | with_reducible apply Keeps.tryAccept | split | dsimp only)
theorem Keeps.evaluateLocked (h : Keeps σ τ) {i : Nat} : Keeps σ (τ.evaluateLocked i) := by
  unfold State.evaluateLocked; try dsimp only
  repeat' (first
    | with_reducible assumption | with_reducible apply Keeps.openSlot | with_reducible apply Keeps.updSlot | split
    | dsimp only)
theorem Keeps.raiseOccupancy (h : Keeps σ τ) {i : Nat} : Keeps σ (τ.raiseOccupancy i) := by
  unfold State.raiseOccupancy; try dsimp only
  repeat' (first
    | with_reducible assumption | with_reducible refine Keeps.forEach (fun _ _ _ => ?_) ?_
    | with_reducible apply Keeps.raiseNow | split | dsimp only)
theorem Keeps.withdrawSlot (h : Keeps σ τ) {i : Nat} : Keeps σ (τ.withdrawSlot i) := by
  unfold State.withdrawSlot; try dsimp only
  repeat' (first
    | with_reducible assumption | with_reducible apply Keeps.withdrawPermission | with_reducible apply Keeps.updSlot
    | with_reducible apply Keeps.raiseOccupancy | split | dsimp only)
theorem Keeps.evaluateOpen (h : Keeps σ τ) {i : Nat} : Keeps σ (τ.evaluateOpen i) := by
  unfold State.evaluateOpen; try dsimp only
  repeat' (first
    | with_reducible assumption | with_reducible apply Keeps.withdrawSlot | with_reducible apply Keeps.evaluateLocked
    | split | dsimp only)
theorem Keeps.evaluatePending (h : Keeps σ τ) {i : Nat} : Keeps σ (τ.evaluatePending i) := by
  unfold State.evaluatePending; try dsimp only
  repeat' (first
    | with_reducible assumption | with_reducible apply Keeps.updSlot | with_reducible apply Keeps.commit
    | with_reducible apply Keeps.evaluateLocked | split | dsimp only)
theorem Keeps.evaluateSlot (h : Keeps σ τ) {i : Nat} : Keeps σ (τ.evaluateSlot i) := by
  unfold State.evaluateSlot; try dsimp only
  repeat' (first
    | with_reducible assumption | with_reducible apply Keeps.evaluatePending
    | with_reducible apply Keeps.evaluateLocked | with_reducible apply Keeps.evaluateOpen | split | dsimp only)
theorem Keeps.lockingPass (h : Keeps σ τ) : Keeps σ (τ.lockingPass) := by
  unfold State.lockingPass; try dsimp only
  repeat' (first
    | with_reducible assumption | with_reducible refine Keeps.forEach (fun _ _ _ => ?_) ?_
    | with_reducible apply Keeps.evaluateSlot | split | dsimp only)

/-! ### FlankSearch -/

theorem Keeps.chooseLocal (h : Keeps σ τ) {i j k e : Nat} {want : Required} {own : Option Nat} : Keeps σ (τ.chooseLocal i j k e want own) := by
  unfold State.chooseLocal; try dsimp only
  repeat' (first
    | with_reducible assumption | with_reducible apply Keeps.setRequirement | with_reducible apply Keeps.placeClaim
    | with_reducible apply Keeps.orderForClaim | with_reducible apply Keeps.removeClaim | split | dsimp only)
theorem Keeps.chooseRemote (h : Keeps σ τ) {i j k l element : Nat} {want : Required} {own : Option Nat} : Keeps σ (τ.chooseRemote i j k l element want own) := by
  unfold State.chooseRemote; try dsimp only
  repeat' (first
    | with_reducible assumption | with_reducible apply Keeps.sendAsk | with_reducible apply Keeps.removeClaim | split
    | dsimp only)
theorem Keeps.search (h : Keeps σ τ) {i j k : Nat} {own : Option Nat} {l : List Candidate} {ρ : State}
    (hs : State.search i j own k l τ = some ρ) : Keeps σ ρ := by
  induction l generalizing k with
  | nil => simp [State.search] at hs
  | cons c l ih =>
    cases c <;> unfold State.search at hs <;> split at hs
    all_goals first
      | exact ih hs
      | (obtain rfl := Option.some.inj hs; first | exact h.chooseLocal | exact h.chooseRemote)
theorem Keeps.searchFrom (h : Keeps σ τ) {i j k : Nat} {own : Option Nat} {ρ : State}
    (hs : τ.searchFrom i j k own = some ρ) : Keeps σ ρ := h.search hs
theorem Keeps.noCandidate (h : Keeps σ τ) {i j : Nat} : Keeps σ (τ.noCandidate i j) := by
  unfold State.noCandidate; split
  exacts [h.dropSlot, h.setRequirement.raiseNow]
theorem Keeps.searchOr (h : Keeps σ τ) {i j start : Nat} : Keeps σ (τ.searchOr i j start) := by
  unfold State.searchOr
  cases hs : τ.searchFrom i j start none with
  | none => exact h.noCandidate
  | some ρ => exact h.searchFrom hs
theorem Keeps.loseLocal (h : Keeps σ τ) {i j e : Nat} : Keeps σ (τ.loseLocal i j e) := by
  unfold State.loseLocal; split
  · rename_i hs; exact h.searchFrom hs
  · split
    exacts [h.noCandidate, h.removeClaim.noCandidate]
theorem Keeps.nextCandidate (h : Keeps σ τ) {i j l : Nat} : Keeps σ (τ.nextCandidate i j l) := by
  unfold State.nextCandidate; try dsimp only
  repeat' (first
    | with_reducible assumption | with_reducible apply Keeps.giveUpAsk | with_reducible apply Keeps.setRequirement
    | with_reducible apply Keeps.searchOr | split | dsimp only)
theorem Keeps.loseRemote (h : Keeps σ τ) {i j l : Nat} : Keeps σ (τ.loseRemote i j l) := by
  unfold State.loseRemote; try dsimp only
  repeat' (first
    | with_reducible assumption | with_reducible apply Keeps.giveUpAsk | with_reducible apply Keeps.setRequirement
    | with_reducible apply Keeps.searchOr | split | dsimp only)
theorem Keeps.loseUnlisted (h : Keeps σ τ) {i j : Nat} : Keeps σ (τ.loseUnlisted i j) := by
  unfold State.loseUnlisted; try dsimp only
  repeat' (first
    | with_reducible assumption | with_reducible apply Keeps.setRequirement | with_reducible apply Keeps.searchOr
    | split | dsimp only)
theorem Keeps.searchAgain (h : Keeps σ τ) {i j : Nat} : Keeps σ (τ.searchAgain i j) := by
  unfold State.searchAgain
  cases hs : τ.searchFrom i j 0 none with
  | none => exact h
  | some ρ => exact h.searchFrom hs
theorem Keeps.searchIfConcerned (h : Keeps σ τ) {changes : List Work} {i j : Nat} : Keeps σ (τ.searchIfConcerned changes i j) := by
  unfold State.searchIfConcerned; split
  exacts [h.searchAgain, h]
theorem Keeps.refreshSatisfied (h : Keeps σ τ) {i j : Nat} : Keeps σ (τ.refreshSatisfied i j) := by
  unfold State.refreshSatisfied; try dsimp only
  repeat' (first | with_reducible assumption | with_reducible apply Keeps.putRequirement | split | dsimp only)
theorem Keeps.reviewRequirement (h : Keeps σ τ) {changes : List Work} {i j : Nat} : Keeps σ (τ.reviewRequirement changes i j) := by
  unfold State.reviewRequirement; try dsimp only
  repeat' (first
    | with_reducible assumption | with_reducible apply Keeps.loseLocal | with_reducible apply Keeps.loseRemote
    | with_reducible apply Keeps.nextCandidate | with_reducible apply Keeps.searchIfConcerned
    | with_reducible apply Keeps.refreshSatisfied | split | dsimp only)
theorem Keeps.reviewRequirements (h : Keeps σ τ) {changes : List Work} : Keeps σ (τ.reviewRequirements changes) := by
  unfold State.reviewRequirements; try dsimp only
  repeat' (first
    | with_reducible assumption | with_reducible refine Keeps.forEach (fun _ _ _ => ?_) ?_
    | with_reducible apply Keeps.reviewRequirement | split | dsimp only)
theorem Keeps.reviewGiven (h : Keeps σ τ) {changes : List Work} {l r : Nat} : Keeps σ (τ.reviewGiven changes l r) := by
  unfold State.reviewGiven; try dsimp only
  repeat' (first
    | with_reducible assumption | with_reducible apply Keeps.updLink | with_reducible apply Keeps.mark
    | with_reducible apply Keeps.hand | split | dsimp only)
theorem Keeps.reviewAllGiven (h : Keeps σ τ) {changes : List Work} : Keeps σ (τ.reviewAllGiven changes) := by
  unfold State.reviewAllGiven; try dsimp only
  repeat' (first
    | with_reducible assumption | with_reducible refine Keeps.forEach (fun _ _ _ => ?_) ?_
    | with_reducible apply Keeps.reviewGiven | split | dsimp only)

/-! ### Release -/

theorem Keeps.approachLock (h : Keeps σ τ) {i : Nat} : Keeps σ (τ.approachLock i) := by
  unfold State.approachLock; try dsimp only
  repeat' (first
    | with_reducible assumption | with_reducible apply Keeps.withdrawPermission | with_reducible apply Keeps.updSlot
    | split | dsimp only)
theorem Keeps.releaseWithSection (h : Keeps σ τ) {i e : Nat} {r : RouteDef} {j : Nat} : Keeps σ (τ.releaseWithSection i e r j) := by
  unfold State.releaseWithSection; try dsimp only
  repeat' (first | with_reducible assumption | with_reducible apply Keeps.releaseRequirement | split | dsimp only)
theorem Keeps.releaseWithOverlap (h : Keeps σ τ) {i : Nat} {r : RouteDef} {j : Nat} : Keeps σ (τ.releaseWithOverlap i r j) := by
  unfold State.releaseWithOverlap; try dsimp only
  repeat' (first | with_reducible assumption | with_reducible apply Keeps.releaseRequirement | split | dsimp only)
theorem Keeps.releaseSection (h : Keeps σ τ) {i e : Nat} {r : RouteDef} : Keeps σ (τ.releaseSection i e r) := by
  unfold State.releaseSection; try dsimp only
  repeat' (first
    | with_reducible assumption | with_reducible refine Keeps.forEach (fun _ _ _ => ?_) ?_
    | with_reducible apply Keeps.unlock | with_reducible apply Keeps.releaseWithSection
    | with_reducible apply Keeps.disarm | with_reducible apply Keeps.updRelease | split | dsimp only)
theorem Keeps.releaseOverlap (h : Keeps σ τ) {i : Nat} {r : RouteDef} : Keeps σ (τ.releaseOverlap i r) := by
  unfold State.releaseOverlap; try dsimp only
  repeat' (first
    | with_reducible assumption | with_reducible refine Keeps.forEach (fun _ _ _ => ?_) ?_
    | with_reducible apply Keeps.unlock | with_reducible apply Keeps.releaseWithOverlap
    | with_reducible apply Keeps.updRelease | split | dsimp only)
theorem Keeps.startOverlap (h : Keeps σ τ) {i : Nat} {r : RouteDef} : Keeps σ (τ.startOverlap i r) := by
  unfold State.startOverlap; try dsimp only
  repeat' (first
    | with_reducible assumption | with_reducible apply Keeps.releaseOverlap | with_reducible apply Keeps.updRelease
    | split | dsimp only)
theorem Keeps.finishPassage (h : Keeps σ τ) {i : Nat} : Keeps σ (τ.finishPassage i) := by
  unfold State.finishPassage; try dsimp only
  repeat' (first
    | with_reducible assumption | with_reducible apply Keeps.removeOutgoing | with_reducible apply Keeps.vacate
    | with_reducible apply Keeps.handFor | split | dsimp only)
theorem Keeps.releaseLoop (h : Keeps σ τ) {i n : Nat} {r : RouteDef} : Keeps σ (State.releaseLoop i r n τ) := by
  induction n generalizing τ with
  | zero => exact h
  | succ n ih =>
    unfold State.releaseLoop; dsimp only
    repeat' (first
      | with_reducible exact h | with_reducible apply Keeps.finishPassage | with_reducible exact ih h.releaseSection
      | with_reducible apply Keeps.releaseSection | split)
theorem Keeps.evaluateRelease (h : Keeps σ τ) {i : Nat} : Keeps σ (τ.evaluateRelease i) := by
  unfold State.evaluateRelease
  repeat' (first | exact h | exact h.startOverlap.releaseLoop | split)
theorem Keeps.armMark (h : Keeps σ τ) {e : Nat} : Keeps σ (τ.armMark e) := h.putMark
theorem Keeps.enterPassing (h : Keeps σ τ) {i : Nat} : Keeps σ (τ.enterPassing i) := by
  unfold State.enterPassing; try dsimp only
  repeat' (first
    | with_reducible assumption | with_reducible refine Keeps.forEach (fun _ _ _ => ?_) ?_
    | with_reducible apply Keeps.withdrawPermission | with_reducible apply Keeps.updSlot
    | with_reducible apply Keeps.forgetSlot | with_reducible apply Keeps.armMark | with_reducible apply Keeps.handFor
    | with_reducible apply Keeps.evaluateRelease | split | dsimp only)
theorem Keeps.passageEvent (h : Keeps σ τ) {i : Nat} : Keeps σ (τ.passageEvent i) := by
  unfold State.passageEvent; try dsimp only
  repeat' (first
    | with_reducible assumption | with_reducible apply Keeps.raiseNow | with_reducible apply Keeps.enterPassing
    | with_reducible apply Keeps.updRelease | split | dsimp only)
theorem Keeps.takeOccupation (h : Keeps σ τ) {e : Nat} : Keeps σ (τ.takeOccupation e) := by
  unfold State.takeOccupation; try dsimp only
  repeat' (first
    | with_reducible assumption | with_reducible apply Keeps.passageEvent | with_reducible apply Keeps.evaluateRelease
    | split | dsimp only)
theorem Keeps.approachExpired (h : Keeps σ τ) {i : Nat} : Keeps σ (τ.approachExpired i) := by
  unfold State.approachExpired; try dsimp only
  repeat' (first
    | with_reducible assumption | with_reducible apply Keeps.releaseSlot | with_reducible apply Keeps.handFor | split
    | dsimp only)
theorem Keeps.timedRequirement (h : Keeps σ τ) {i j : Nat} : Keeps σ (τ.timedRequirement i j) := by
  unfold State.timedRequirement; try dsimp only
  repeat' (first
    | with_reducible assumption | with_reducible apply Keeps.releaseRequirement
    | with_reducible apply Keeps.setRequirement | split | dsimp only)
theorem Keeps.withdrawIncoming (h : Keeps σ τ) {i : Nat} : Keeps σ (τ.withdrawIncoming i) := by
  unfold State.withdrawIncoming; try dsimp only
  repeat' (first
    | with_reducible assumption | with_reducible apply Keeps.handFor | with_reducible apply Keeps.updBoundary | split
    | dsimp only)
theorem Keeps.enterTimedRelease (h : Keeps σ τ) {i : Nat} : Keeps σ (τ.enterTimedRelease i) := by
  unfold State.enterTimedRelease; try dsimp only
  repeat' (first
    | with_reducible assumption | with_reducible refine Keeps.forEach (fun _ _ _ => ?_) ?_
    | with_reducible apply Keeps.withdrawPermission | with_reducible apply Keeps.disarmAll
    | with_reducible apply Keeps.clearBeyond | with_reducible apply Keeps.timedRequirement
    | with_reducible apply Keeps.withdrawOutgoing | with_reducible apply Keeps.withdrawIncoming
    | with_reducible apply Keeps.forgetSlot | with_reducible apply Keeps.updSlot | split | dsimp only)

/-! ### Settle -/

theorem Keeps.linkDownAt (h : Keeps σ τ) {e : Nat} : Keeps σ (τ.linkDownAt e) := by
  unfold State.linkDownAt; try dsimp only
  repeat' (first
    | with_reducible assumption | with_reducible apply Keeps.updBoundary | with_reducible apply Keeps.removeOutgoing
    | with_reducible apply Keeps.dropSlot | split | dsimp only)
theorem Keeps.handoverLinkLoss (h : Keeps σ τ) {l : Nat} : Keeps σ (τ.handoverLinkLoss l) := by
  unfold State.handoverLinkLoss; try dsimp only
  repeat' (first
    | with_reducible assumption | with_reducible refine Keeps.forEach (fun _ _ _ => ?_) ?_
    | with_reducible apply Keeps.linkDownAt | split | dsimp only)
theorem Keeps.flankReview (h : Keeps σ τ) {changes : List Work} : Keeps σ (τ.flankReview changes) := by
  unfold State.flankReview; try dsimp only
  repeat' (first
    | with_reducible assumption | with_reducible refine Keeps.forEach (fun _ _ _ => ?_) ?_
    | with_reducible apply Keeps.reviewRequirements | with_reducible apply Keeps.reviewAllGiven
    | with_reducible apply Keeps.sendDeferredAsks | with_reducible apply Keeps.sendDeferredOffers | split | dsimp only)
theorem Keeps.heed (h : Keeps σ τ) {changes : List Work} : Keeps σ (τ.heed changes) :=
  .forEach (fun _ _ k => by unfold State.heedSlot; split <;> [exact k.locking; exact k]) h
theorem Keeps.takeChanges (h : Keeps σ τ) : Keeps σ τ.takeChanges := by
  have hc {c : List Work} {ρ : State} (k : Keeps σ ρ) : Keeps σ (ρ.forEach (downLinks c) State.handoverLinkLoss) :=
    .forEach (fun _ _ k => k.handoverLinkLoss) k
  unfold State.takeChanges; dsimp only
  repeat' split
  exacts [(hc h.noWork.heed.choose).flankReview, hc h.noWork.heed.choose.flankReview, (hc h.noWork.heed).flankReview]
theorem Keeps.settleRounds (h : Keeps σ τ) {n : Nat} : Keeps σ (State.settleRounds n τ) := by
  induction n generalizing τ with
  | zero => exact h.note
  | succ n ih =>
    unfold State.settleRounds; dsimp only
    repeat' split
    exacts [h.lockingPass, ih h.lockingPass, ih h.takeChanges]
theorem Keeps.settle (h : Keeps σ τ) : Keeps σ τ.settle := by
  unfold State.settle; split
  exacts [h, h.settleRounds]

end Sys2Proof.Machine
end

