-- ==== Sys2Proof/Laws/Commands.lean ====
section
/-! SUPPORT. What the commands of the routes, the links and the handover do within the blocks is a `Keeps` as well. -/

namespace Sys2Proof.Machine

set_option linter.unusedTactic false
set_option linter.unreachableTactic false

variable {σ τ : State}

/-- What a telegram does at its port. -/
theorem Keeps.receive (h : Keeps σ τ) {l : Nat} {seq : Byte} {a : Arrival} : Keeps σ (τ.receive l seq a).1 := by
  unfold State.receive; dsimp only
  repeat' (first
    | with_reducible assumption | with_reducible apply Keeps.goDown | with_reducible apply Keeps.healthGood
    | with_reducible apply Keeps.enterUp | with_reducible apply Keeps.updLink | split | dsimp only)

/-! ### RouteCommands -/

theorem Keeps.placeLocks (h : Keeps σ τ) {i : Nat} {r : RouteDef} : Keeps σ (τ.placeLocks i r) := by
  unfold State.placeLocks; try dsimp only
  repeat' (first
    | with_reducible assumption | with_reducible refine Keeps.forEach (fun _ _ _ => ?_) ?_
    | with_reducible apply Keeps.placeLock | split | dsimp only)
theorem Keeps.placeChoice (h : Keeps σ τ) {i j k : Nat} {c : Candidate} : Keeps σ (τ.placeChoice i j k c) := by
  unfold State.placeChoice; split
  exacts [h.chooseLocal, h.chooseLocal, h.chooseRemote]
theorem Keeps.placeChoices (h : Keeps σ τ) {i j : Nat} {l : List (Nat × Candidate)} :
    Keeps σ (State.placeChoices i j l τ) := by
  induction l generalizing j τ with
  | nil => exact h
  | cons c l ih => exact ih h.placeChoice
theorem Keeps.placeNeeds (h : Keeps σ τ) {i group : Nat} {r : RouteDef} : Keeps σ (τ.placeNeeds i group r) := by
  unfold State.placeNeeds; dsimp only; split
  exacts [h.commit, h.updSlot]
theorem Keeps.takeRoute (h : Keeps σ τ) {id group : Nat} {r : RouteDef} {plan : RoutePlan} :
    Keeps σ (τ.takeRoute id group r plan) := by
  unfold State.takeRoute; dsimp only
  repeat' (first
    | with_reducible assumption | with_reducible apply Keeps.placeNeeds | with_reducible apply Keeps.sendOffer
    | with_reducible apply Keeps.placeChoices | with_reducible apply Keeps.placeLocks | with_reducible apply Keeps.updBoundary
    | with_reducible apply Keeps.putSlot | split)
theorem Keeps.groupStep (h : Keeps σ τ) {i : Nat} : Keeps σ (τ.groupStep i) := by
  unfold State.groupStep; try dsimp only
  repeat' (first
    | with_reducible assumption | with_reducible apply Keeps.updSlot | with_reducible apply Keeps.commit | split
    | dsimp only)
theorem Keeps.awaitRelease (h : Keeps σ τ) {i e : Nat} {o : IncomingOffer} : Keeps σ (τ.awaitRelease i e o) := by
  unfold State.awaitRelease; try dsimp only
  repeat' (first
    | with_reducible assumption | with_reducible apply Keeps.handFor | with_reducible apply Keeps.updBoundary
    | with_reducible apply Keeps.updSlot | split | dsimp only)
theorem Keeps.cancelSecured (h : Keeps σ τ) {i : Nat} : Keeps σ (τ.cancelSecured i) := by
  unfold State.cancelSecured; try dsimp only
  repeat' (first
    | with_reducible assumption | with_reducible apply Keeps.awaitRelease | with_reducible apply Keeps.approachLock
    | with_reducible apply Keeps.releaseSlot | split | dsimp only)
theorem Keeps.provingExpired (h : Keeps σ τ) {i : Nat} : Keeps σ (τ.provingExpired i) := by
  unfold State.provingExpired; try dsimp only
  repeat' (first
    | with_reducible assumption | with_reducible apply Keeps.withdrawPermission | with_reducible apply Keeps.updSlot
    | with_reducible apply Keeps.raiseNow | split | dsimp only)
theorem Keeps.overlapExpired (h : Keeps σ τ) {i : Nat} : Keeps σ (τ.overlapExpired i) := by
  unfold State.overlapExpired; try dsimp only
  repeat' (first
    | with_reducible assumption | with_reducible apply Keeps.releaseOverlap
    | with_reducible apply Keeps.evaluateRelease | split | dsimp only)

/-! ### OfferCommands -/

theorem Keeps.takeOffer (h : Keeps σ τ) {l e r cls : Nat} : Keeps σ (τ.takeOffer l e r cls) := by
  unfold State.takeOffer; try dsimp only
  repeat' (first
    | with_reducible assumption | with_reducible apply Keeps.hand | with_reducible apply Keeps.updBoundary
    | with_reducible apply Keeps.tryAccept | split | dsimp only)
theorem Keeps.dropIncoming (h : Keeps σ τ) {r e : Nat} : Keeps σ (τ.dropIncoming r e) := by
  unfold State.dropIncoming; try dsimp only
  repeat' (first | with_reducible assumption | with_reducible apply Keeps.updBoundary | split | dsimp only)
theorem Keeps.takeReleased (h : Keeps σ τ) {l r : Nat} : Keeps σ (τ.takeReleased l r) := by
  unfold State.takeReleased; try dsimp only
  repeat' (first | with_reducible assumption | with_reducible apply Keeps.releaseSlot | split | dsimp only)
theorem Keeps.takeAccept (h : Keeps σ τ) {l r : Nat} : Keeps σ (τ.takeAccept l r) := by
  unfold State.takeAccept; try dsimp only
  repeat' (first
    | with_reducible assumption | with_reducible apply Keeps.hand | with_reducible apply Keeps.updBoundary
    | with_reducible apply Keeps.mark | with_reducible apply Keeps.updSlot | split | dsimp only)
theorem Keeps.takeRefuse (h : Keeps σ τ) {l r reason : Nat} : Keeps σ (τ.takeRefuse l r reason) := by
  unfold State.takeRefuse; try dsimp only
  repeat' (first
    | with_reducible assumption | with_reducible apply Keeps.hand | with_reducible apply Keeps.removeOutgoing
    | with_reducible apply Keeps.dropSlot | with_reducible apply Keeps.updSlot | split | dsimp only)
theorem Keeps.loseToWithdraw (h : Keeps σ τ) {e i : Nat} : Keeps σ (τ.loseToWithdraw e i) := by
  unfold State.loseToWithdraw; dsimp only
  repeat' split
  exacts [h.removeOutgoing.dropSlot.handFor, h.removeOutgoing.approachLock.updBoundary, h.removeOutgoing.releaseSlot.handFor,
    h.removeOutgoing.approachLock.updBoundary, h.removeOutgoing.releaseSlot.handFor, h.removeOutgoing.updBoundary, h]
theorem Keeps.withdrawOutgoingOf (h : Keeps σ τ) {l r : Nat} : Keeps σ (τ.withdrawOutgoingOf l r) := by
  unfold State.withdrawOutgoingOf; try dsimp only
  repeat' (first | with_reducible assumption | with_reducible apply Keeps.loseToWithdraw | split | dsimp only)
theorem Keeps.takeWithdraw (h : Keeps σ τ) {l r : Nat} : Keeps σ (τ.takeWithdraw l r) := by
  unfold State.takeWithdraw; try dsimp only
  repeat' (first
    | with_reducible assumption | with_reducible refine Keeps.forEach (fun _ _ _ => ?_) ?_
    | with_reducible apply Keeps.dropIncoming | with_reducible apply Keeps.withdrawOutgoingOf | split | dsimp only)
theorem Keeps.setBeyond (h : Keeps σ τ) {e : Nat} : Keeps σ (τ.setBeyond e) := by
  unfold State.setBeyond; try dsimp only
  repeat' (first
    | with_reducible assumption | with_reducible refine Keeps.forEach (fun _ _ _ => ?_) ?_
    | with_reducible apply Keeps.updBoundary | with_reducible apply Keeps.evaluateRelease | split | dsimp only)
theorem Keeps.takeOccupiedBeyond (h : Keeps σ τ) {l e : Nat} : Keeps σ (τ.takeOccupiedBeyond l e) := by
  unfold State.takeOccupiedBeyond; try dsimp only
  repeat' (first | with_reducible assumption | with_reducible apply Keeps.setBeyond | split | dsimp only)
theorem Keeps.takeClearedBehind (h : Keeps σ τ) {l e : Nat} : Keeps σ (τ.takeClearedBehind l e) := by
  unfold State.takeClearedBehind; try dsimp only
  repeat' (first
    | with_reducible assumption | with_reducible apply Keeps.updRelease | with_reducible apply Keeps.evaluateRelease
    | split | dsimp only)

/-! ### DirectionCommands -/

theorem Keeps.takeDirAsk (h : Keeps σ τ) {l e : Nat} : Keeps σ (τ.takeDirAsk l e) := by
  unfold State.takeDirAsk; try dsimp only
  repeat' (first
    | with_reducible assumption | with_reducible apply Keeps.updBoundary | with_reducible apply Keeps.hand | split
    | dsimp only)
theorem Keeps.endAsking (h : Keeps σ τ) {e : Nat} {d : Direction} : Keeps σ (τ.endAsking e d) := by
  unfold State.endAsking; try dsimp only
  repeat' (first | with_reducible assumption | with_reducible apply Keeps.updBoundary | split | dsimp only)
theorem Keeps.takeDirGive (h : Keeps σ τ) {l e : Nat} : Keeps σ (τ.takeDirGive l e) := by
  unfold State.takeDirGive; try dsimp only
  repeat' (first | with_reducible assumption | with_reducible apply Keeps.endAsking | split | dsimp only)
theorem Keeps.takeDirDeny (h : Keeps σ τ) {l e : Nat} : Keeps σ (τ.takeDirDeny l e) := by
  unfold State.takeDirDeny; try dsimp only
  repeat' (first | with_reducible assumption | with_reducible apply Keeps.endAsking | split | dsimp only)

/-! ### FlankCommands -/

theorem Keeps.grant (h : Keeps σ τ) {l r e : Nat} {q : Required} : Keeps σ (τ.grant l r e q) := by
  unfold State.grant; dsimp only
  repeat' (first
    | with_reducible assumption | with_reducible apply Keeps.hand | with_reducible apply Keeps.orderForClaim
    | with_reducible apply Keeps.placeClaim | with_reducible apply Keeps.mark | with_reducible apply Keeps.updLink | split)
theorem Keeps.judgeAsk (h : Keeps σ τ) {l r e : Nat} {q : Required} : Keeps σ (τ.judgeAsk l r e q) := by
  unfold State.judgeAsk; try dsimp only
  repeat' (first
    | with_reducible assumption | with_reducible apply Keeps.grant | with_reducible apply Keeps.hand | split
    | dsimp only)
theorem Keeps.takeFlankAsk (h : Keeps σ τ) {l r e want : Nat} : Keeps σ (τ.takeFlankAsk l r e want) := by
  unfold State.takeFlankAsk; try dsimp only
  repeat' (first
    | with_reducible assumption | with_reducible apply Keeps.hand | with_reducible apply Keeps.releaseGiven
    | with_reducible apply Keeps.judgeAsk | split | dsimp only)
theorem Keeps.holdRemote (h : Keeps σ τ) {i j : Nat} {q : Requirement} : Keeps σ (τ.holdRemote i j q) := by
  unfold State.holdRemote; try dsimp only
  repeat' (first | with_reducible assumption | with_reducible apply Keeps.setRequirement | split | dsimp only)
theorem Keeps.takeFlankGiven (h : Keeps σ τ) {l r : Nat} : Keeps σ (τ.takeFlankGiven l r) := by
  unfold State.takeFlankGiven; try dsimp only
  repeat' (first
    | with_reducible assumption | with_reducible apply Keeps.holdRemote | with_reducible apply Keeps.hand | split
    | dsimp only)
theorem Keeps.takeFlankRefused (h : Keeps σ τ) {l r : Nat} : Keeps σ (τ.takeFlankRefused l r) := by
  unfold State.takeFlankRefused; try dsimp only
  repeat' (first | with_reducible assumption | with_reducible apply Keeps.nextCandidate | split | dsimp only)
theorem Keeps.takeFlankWithdrawn (h : Keeps σ τ) {l r : Nat} : Keeps σ (τ.takeFlankWithdrawn l r) := by
  unfold State.takeFlankWithdrawn; try dsimp only
  repeat' (first
    | with_reducible assumption | with_reducible apply Keeps.nextCandidate | with_reducible apply Keeps.loseRemote
    | split | dsimp only)

/-! ### StateCommand -/

theorem Keeps.releaseUnlisted (h : Keeps σ τ) {l : Nat} {b : StateBody} : Keeps σ (τ.releaseUnlisted l b) := by
  unfold State.releaseUnlisted; try dsimp only
  repeat' (first
    | with_reducible assumption | with_reducible refine Keeps.forEach (fun _ _ _ => ?_) ?_
    | with_reducible apply Keeps.releaseGiven | split | dsimp only)
theorem Keeps.checkHeld (h : Keeps σ τ) {l : Nat} {b : StateBody} {p : Nat × Nat} : Keeps σ (τ.checkHeld l b p) := by
  unfold State.checkHeld; try dsimp only
  repeat' (first
    | with_reducible assumption | with_reducible apply Keeps.loseUnlisted | with_reducible apply Keeps.searchIfConcerned
    | split | dsimp only)
theorem Keeps.freeAsks (h : Keeps σ τ) {l : Nat} {b : StateBody} : Keeps σ (τ.freeAsks l b) := by
  unfold State.freeAsks; try dsimp only
  repeat' (first | with_reducible assumption | with_reducible apply Keeps.updLink | split | dsimp only)
theorem Keeps.reconcileFlank (h : Keeps σ τ) {l : Nat} {b : StateBody} : Keeps σ (τ.reconcileFlank l b) := by
  unfold State.reconcileFlank; try dsimp only
  repeat' (first
    | with_reducible assumption | with_reducible refine Keeps.forEach (fun _ _ _ => ?_) ?_
    | with_reducible apply Keeps.releaseUnlisted | with_reducible apply Keeps.checkHeld
    | with_reducible apply Keeps.freeAsks | with_reducible apply Keeps.sendDeferredAsks | split | dsimp only)
theorem Keeps.checkIncoming (h : Keeps σ τ) {b : StateBody} {e : Nat} : Keeps σ (τ.checkIncoming b e) := by
  unfold State.checkIncoming; try dsimp only
  repeat' (first | with_reducible assumption | with_reducible apply Keeps.updBoundary | split | dsimp only)
theorem Keeps.loseAcceptance (h : Keeps σ τ) {e i : Nat} : Keeps σ (τ.loseAcceptance e i) := by
  unfold State.loseAcceptance; try dsimp only
  repeat' (first
    | with_reducible assumption | with_reducible apply Keeps.removeOutgoing | with_reducible apply Keeps.dropSlot
    | split | dsimp only)
theorem Keeps.checkOutgoing (h : Keeps σ τ) {b : StateBody} {e : Nat} : Keeps σ (τ.checkOutgoing b e) := by
  unfold State.checkOutgoing; try dsimp only
  repeat' (first | with_reducible assumption | with_reducible apply Keeps.loseAcceptance | split | dsimp only)
theorem Keeps.freeOffers (h : Keeps σ τ) {l : Nat} {b : StateBody} : Keeps σ (τ.freeOffers l b) := by
  unfold State.freeOffers; try dsimp only
  repeat' (first | with_reducible assumption | with_reducible apply Keeps.updLink | split | dsimp only)
theorem Keeps.reconcileOutgoing (h : Keeps σ τ) {l : Nat} {b : StateBody} : Keeps σ (τ.reconcileOutgoing l b) := by
  unfold State.reconcileOutgoing; try dsimp only
  repeat' (first
    | with_reducible assumption | with_reducible refine Keeps.forEach (fun _ _ _ => ?_) ?_
    | with_reducible apply Keeps.checkOutgoing | with_reducible apply Keeps.freeOffers
    | with_reducible apply Keeps.sendDeferredOffers | split | dsimp only)
theorem Keeps.checkBeyond (h : Keeps σ τ) {b : StateBody} {e : Nat} : Keeps σ (τ.checkBeyond b e) := by
  unfold State.checkBeyond; try dsimp only
  repeat' (first | with_reducible assumption | with_reducible apply Keeps.setBeyond | split | dsimp only)
theorem Keeps.loseToDirection (h : Keeps σ τ) {e : Nat} : Keeps σ (τ.loseToDirection e) := by
  unfold State.loseToDirection; try dsimp only
  repeat' (first
    | with_reducible assumption | with_reducible apply Keeps.removeOutgoing | with_reducible apply Keeps.dropSlot
    | split | dsimp only)
theorem Keeps.takeDirection (h : Keeps σ τ) {e : Nat} {d : Direction} : Keeps σ (τ.takeDirection e d) := by
  unfold State.takeDirection; try dsimp only
  repeat' (first
    | with_reducible assumption | with_reducible apply Keeps.updBoundary | with_reducible apply Keeps.raiseNow
    | with_reducible apply Keeps.loseToDirection | split | dsimp only)
theorem Keeps.endConflict (h : Keeps σ τ) {e : Nat} {own peer : Direction} : Keeps σ (τ.endConflict e own peer) := by
  unfold State.endConflict; split
  exacts [h.causeGone (fun k => absurd k (by decide)), h]
theorem Keeps.checkDirection (h : Keeps σ τ) {l : Nat} {b : StateBody} {e : Nat} : Keeps σ (τ.checkDirection l b e) := by
  unfold State.checkDirection; try dsimp only
  repeat' (first
    | with_reducible assumption | with_reducible apply Keeps.takeDirection | with_reducible apply Keeps.endConflict
    | split | dsimp only)
theorem Keeps.takeState (h : Keeps σ τ) {l : Nat} {b : StateBody} : Keeps σ (τ.takeState l b) := by
  unfold State.takeState; try dsimp only
  repeat' (first
    | with_reducible assumption | with_reducible refine Keeps.forEach (fun _ _ _ => ?_) ?_
    | with_reducible apply Keeps.updLink | with_reducible apply Keeps.reconcileFlank
    | with_reducible apply Keeps.checkIncoming | with_reducible apply Keeps.reconcileOutgoing
    | with_reducible apply Keeps.checkBeyond | with_reducible apply Keeps.checkDirection | split | dsimp only)

end Sys2Proof.Machine
end

