-- ==== Sys2Proof/Laws/Entries.lean ====
section
/-! SUPPORT. What the field image, the mode and the preparation take from the host is a `Steady`: the writers that a cascade does
not use, and the operations over them. -/

namespace Sys2Proof.Machine

set_option linter.unusedTactic false
set_option linter.unreachableTactic false

variable {σ τ ρ : State}

theorem Steady.next (h : Steady σ τ) (k : Keeps τ ρ) : Steady σ ρ := h.trans k.steady

/-- A state that differs from `τ` in the field image alone. -/
theorem Steady.field (h : Steady σ τ) {x : FieldImage} : Steady σ { τ with field := x } :=
  h.of_fields rfl rfl rfl rfl rfl rfl (.inl rfl)

theorem Steady.putSection (h : Steady σ τ) {e : Nat} {x : SectionImage} : Steady σ (τ.putSection e x) := by
  unfold State.putSection; split
  exacts [h, h.field.next (Keeps.refl _).mark]
theorem Steady.putDetection (h : Steady σ τ) {e : Nat} {x : Detection} : Steady σ (τ.putDetection e x) := by
  unfold State.putDetection; split
  exacts [h, h.field.next (Keeps.refl _).mark.note]
theorem Steady.putSignal (h : Steady σ τ) {e : Nat} {x : SignalImage} : Steady σ (τ.putSignal e x) := by
  unfold State.putSignal; dsimp only
  repeat' (first | exact h | split | exact h.field.next (Keeps.refl _).mark | exact h.field.next (Keeps.refl _).mark.note)
theorem Steady.putSupply (h : Steady σ τ) {e : Nat} {x : Supply} : Steady σ (τ.putSupply e x) := by
  unfold State.putSupply; split
  exacts [h, h.field.next (Keeps.refl _).mark]
theorem Steady.putOutstanding (h : Steady σ τ) {n : Nat} : Steady σ (τ.putOutstanding n) := by
  unfold State.putOutstanding; split
  exacts [h, h.field.next (Keeps.refl _).mark]
theorem Steady.whenB (h : Steady σ τ) {b : Bool} {f : State → State} (hf : ∀ ρ, Steady σ ρ → Steady σ (f ρ)) :
    Steady σ (τ.whenB b f) := by
  unfold State.whenB; split
  exacts [hf _ h, h]

/-- Any mode may be written with ENABLE_OUT (R157). -/
theorem Calm.setMode (h : Calm σ τ) {m : Mode} : Calm σ (τ.setMode m) := by
  have k : Calm σ { τ with su := { τ.su with mode := m, enableOut := m.enabled } } := { h with enable := fun _ => rfl }
  unfold State.setMode; dsimp only
  split
  · exact h
  · split
    exacts [k.trans (Keeps.refl _).mark.note.emptyThrowQueues.steady.toCalm, k.trans (Keeps.refl _).mark.note.steady.toCalm]

theorem State.setMode_mode (s : State) (m : Mode) : (s.setMode m).su.mode = m := by
  unfold State.setMode; dsimp only
  split
  · assumption
  · split
    · subst m
      have := (Keeps.refl (({ s with su := { s.su with mode := .safeHold, enableOut := Mode.safeHold.enabled } }).mark .device
        |>.note .conditions)).emptyThrowQueues.mode
      simpa [Mode.stricter] using this
    · simp

theorem Steady.setMode (h : Steady σ τ) {m : Mode} (hm : τ.su.mode.moves m) : Steady σ (τ.setMode m) :=
  ⟨h.toCalm.setMode, Mode.moves_trans h.mode (by rw [State.setMode_mode]; exact hm)⟩

theorem Steady.heard (h : Steady σ τ) : Steady σ τ.heard := by
  have k : Steady σ (τ.putOutstanding (τ.field.outstanding - 1)) := h.putOutstanding
  unfold State.heard; dsimp only
  split
  · rename_i c; exact k.setMode (.inr (.inr ⟨.inr c.2, rfl⟩))
  · exact k

/-- A resumption (R163). -/
theorem Calm.resumeTo (h : Calm σ τ) {m : Mode} : Calm σ (τ.resumeTo m) := by
  unfold State.resumeTo State.leaveSafeHold
  split
  · refine .forEach (fun p t k => k.trans (Keeps.refl t).reorderClaimed.steady.toCalm) ?_
    refine .forEach (fun p t k => k.trans (Keeps.refl t).reorderLocked.steady.toCalm) ?_
    exact (h.trans (Keeps.refl τ).setOverflow.steady.toCalm).setMode
  · exact h.setMode

theorem Steady.putPreparation (h : Steady σ τ) {p : Option Preparation} : Steady σ (τ.putPreparation p) := by
  have k : Steady σ { τ with host := { τ.host with preparation := p } } := { h with }
  unfold State.putPreparation; split
  exacts [h, k.next (Keeps.refl _).mark]
theorem Steady.startSilence (h : Steady σ τ) : Steady σ τ.startSilence := { h with }
theorem Steady.checkPoint (h : Steady σ τ) {p : Nat} {before after : Detection} : Steady σ (τ.checkPoint p before after) := by
  unfold State.checkPoint; split
  · exact h.next ((Keeps.refl _).raise fun k => absurd k (by decide))
  · split
    exacts [h.next (Keeps.refl _).raiseNow, h]
theorem Steady.silent (h : Steady σ τ) : Steady σ τ.silent := by
  have k : Steady σ { τ with su := { τ.su with silenceFirst := .stopped } } := { h with }
  exact k.next (Keeps.refl _).raiseNow
theorem Steady.silentLong (h : Steady σ τ) : Steady σ τ.silentLong := by
  have k : Steady σ { τ with su := { τ.su with silenceSecond := .stopped } } := { h with }
  exact k.next (Keeps.refl _).raiseNow
theorem Steady.causeGone (h : Steady σ τ) {k : FaultKind} {sub : Subject} : Steady σ (τ.causeGone k sub) := by
  have w {l : List (FaultKind × Subject)} : Steady σ { τ with su := { τ.su with causes := l } } := { h with }
  unfold State.causeGone; dsimp only
  repeat' (first
    | with_reducible exact h | exact w.next (Keeps.refl _).clearRecord.note | exact w.next (Keeps.refl _).clearRecord | split)
theorem Steady.goodHostFrame (h : Steady σ τ) : Steady σ τ.goodHostFrame := by
  unfold State.goodHostFrame; split
  exacts [h.startSilence.causeGone.causeGone.next (Keeps.refl _).note, h]
theorem Steady.settle (h : Steady σ τ) : Steady σ τ.settle := h.next (Keeps.refl _).settle

/-! ### FieldImage -/

theorem Steady.passSection (h : Steady σ τ) {e : Nat} : Steady σ (τ.passSection e) := by
  unfold State.passSection; try dsimp only
  repeat' (first
    | with_reducible assumption | with_reducible refine Steady.next ?_ (Keeps.note (Keeps.refl _))
    | with_reducible refine Steady.next ?_ (Keeps.takeOccupation (Keeps.refl _)) | split | dsimp only)
theorem Steady.sectionEntry (h : Steady σ τ) {e : Nat} {v : Occupation} : Steady σ (τ.sectionEntry e v) := by
  unfold State.sectionEntry; try dsimp only
  repeat' (first
    | with_reducible assumption | with_reducible apply Steady.putSection | with_reducible refine Steady.whenB ?_ (fun _ _ => ?_)
    | with_reducible apply Steady.heard | with_reducible apply Steady.passSection
    | with_reducible refine Steady.next ?_ (Keeps.reassess (Keeps.refl _))
    | with_reducible refine Steady.next ?_ (Keeps.raiseNow (Keeps.refl _)) | split | dsimp only)
theorem Steady.restore (h : Steady σ τ) {e : Nat} : Steady σ (τ.restore e) := by
  unfold State.restore; try dsimp only
  repeat' (first
    | with_reducible assumption | with_reducible apply Steady.putSection | with_reducible apply Steady.passSection
    | with_reducible refine Steady.next ?_ (Keeps.reassess (Keeps.refl _)) | split | dsimp only)
theorem Steady.pointEntry (h : Steady σ τ) {p : Nat} {d : Detection} : Steady σ (τ.pointEntry p d) := by
  unfold State.pointEntry; try dsimp only
  repeat' (first
    | with_reducible assumption | with_reducible apply Steady.putDetection | with_reducible refine Steady.whenB ?_ (fun _ _ => ?_)
    | with_reducible apply Steady.heard | with_reducible apply Steady.checkPoint
    | with_reducible refine Steady.next ?_ (Keeps.reassess (Keeps.refl _))
    | with_reducible refine Steady.next ?_ (Keeps.takeDetection (Keeps.refl _)) | split | dsimp only)
theorem Steady.stopProving (h : Steady σ τ) {g i : Nat} : Steady σ (τ.stopProving g i) := by
  unfold State.stopProving; try dsimp only
  repeat' (first
    | with_reducible assumption | with_reducible refine Steady.next ?_ (Keeps.updSlot (Keeps.refl _)) | split
    | dsimp only)
theorem Steady.signalEntry (h : Steady σ τ) {g : Nat} {v : Proving} : Steady σ (τ.signalEntry g v) := by
  unfold State.signalEntry; try dsimp only
  repeat' (first
    | with_reducible assumption | with_reducible refine Steady.forEach (fun _ _ _ => ?_) ?_
    | with_reducible apply Steady.putSignal | with_reducible refine Steady.whenB ?_ (fun _ _ => ?_) | with_reducible apply Steady.heard
    | with_reducible apply Steady.stopProving | with_reducible refine Steady.next ?_ (Keeps.reassess (Keeps.refl _))
    | with_reducible refine Steady.next ?_ (Keeps.note (Keeps.refl _))
    | with_reducible refine Steady.next ?_ (Keeps.raiseNow (Keeps.refl _)) | split | dsimp only)
theorem Steady.withdrawalExpired (h : Steady σ τ) {g : Nat} : Steady σ (τ.withdrawalExpired g) := by
  unfold State.withdrawalExpired; try dsimp only
  repeat' (first
    | with_reducible assumption | with_reducible apply Steady.putSignal
    | with_reducible refine Steady.next ?_ (Keeps.raiseNow (Keeps.refl _)) | split | dsimp only)

/-- One field report entry, when it is applied. -/
theorem Steady.fieldEntry (h : Steady σ τ) {e kind value : Nat} (hs : τ.fieldEntry e kind value = some ρ) : Steady σ ρ := by
  unfold State.fieldEntry at hs
  repeat' split at hs
  all_goals first
    | contradiction
    | (obtain ⟨_, _, rfl⟩ := Option.map_eq_some_iff.mp hs
       first | exact h.sectionEntry | exact h.pointEntry | exact h.signalEntry)

/-- One supply report entry, when it is applied. -/
theorem Steady.supplyEntry (h : Steady σ τ) {g value : Nat} (hs : τ.supplyEntry g value = some ρ) : Steady σ ρ := by
  have k {v : Supply} : Steady σ (State.whenB (τ.supply g == .unknown) State.heard (τ.putSupply g v)) :=
    h.putSupply.whenB fun _ h => h.heard
  unfold State.supplyEntry at hs
  split at hs
  · cases hs
  · split at hs
    · cases hs
    · dsimp only at hs
      split at hs <;> obtain rfl := Option.some.inj hs
      · exact h
      · split
        · exact k.next (Keeps.refl _).supplyReturned
        · split
          exacts [k.next (Keeps.refl _).supplyLost, k]

/-- A whole report. -/
theorem Steady.runEntries {α : Type} {apply : α → State → Option State}
    (ha : ∀ a τ ρ, Steady σ τ → apply a τ = some ρ → Steady σ ρ) {l : List α} {k : Nat} {run : ReportRun}
    (h : Steady σ run.state) : Steady σ (Machine.runEntries apply k l run).state := by
  induction l generalizing k run with
  | nil => exact h
  | cons a l ih =>
    unfold Machine.runEntries
    split
    · rename_i hs; exact ih (ha a _ _ h hs).settle
    · exact ih h

end Sys2Proof.Machine
end

