-- ==== Sys2Proof/Laws/HostLink.lean ====
section
/-! SUPPORT. Laws of the host link: the transmit line, the queue of requests, and the end of an event. -/

namespace Sys2Proof.Machine

variable (s : State)

/-! ### Serving the line -/

@[simp] theorem State.serveLine_time : s.serveLine.time = s.time := by
  unfold State.serveLine; repeat' (first | rfl | split)
@[simp] theorem State.serveLine_cfg : s.serveLine.cfg = s.cfg := by
  unfold State.serveLine; repeat' (first | rfl | split)
@[simp] theorem State.serveLine_field : s.serveLine.field = s.field := by
  unfold State.serveLine; repeat' (first | rfl | split)
@[simp] theorem State.serveLine_locking : s.serveLine.locking = s.locking := by
  unfold State.serveLine; repeat' (first | rfl | split)
@[simp] theorem State.serveLine_claims : s.serveLine.claims = s.claims := by
  unfold State.serveLine; repeat' (first | rfl | split)
@[simp] theorem State.serveLine_movement : s.serveLine.movement = s.movement := by
  unfold State.serveLine; repeat' (first | rfl | split)
@[simp] theorem State.serveLine_links : s.serveLine.links = s.links := by
  unfold State.serveLine; repeat' (first | rfl | split)
@[simp] theorem State.serveLine_boundaries : s.serveLine.boundaries = s.boundaries := by
  unfold State.serveLine; repeat' (first | rfl | split)
@[simp] theorem State.serveLine_su : s.serveLine.su = s.su := by
  unfold State.serveLine; repeat' (first | rfl | split)
@[simp] theorem State.serveLine_work : s.serveLine.work = s.work := by
  unfold State.serveLine; repeat' (first | rfl | split)
@[simp] theorem State.serveLine_choices : s.serveLine.choices = s.choices := by
  unfold State.serveLine; repeat' (first | rfl | split)
@[simp] theorem State.serveLine_pending : s.serveLine.pending = s.pending := by
  unfold State.serveLine; repeat' (first | rfl | split)
@[simp] theorem State.serveLine_inputs : s.serveLine.inputs = s.inputs := by
  unfold State.serveLine; repeat' (first | rfl | split)
@[simp] theorem State.serveLine_counters : s.serveLine.host.counters = s.host.counters := by
  unfold State.serveLine; repeat' (first | rfl | split)
@[simp] theorem State.serveLine_requests : s.serveLine.host.requests = s.host.requests := by
  unfold State.serveLine; repeat' (first | rfl | split)
@[simp] theorem State.serveLine_preparation : s.serveLine.host.preparation = s.host.preparation := by
  unfold State.serveLine; repeat' (first | rfl | split)

/-- Serving the line changes no reply's place. -/
@[simp] theorem State.serveLine_outbox : s.serveLine.outbox = s.outbox := by
  unfold State.serveLine
  split
  · rfl
  · rename_i h
    split
    · rename_i h'; simp [State.outbox, h, h']
    · rename_i h'
      split
      · simp [State.outbox, h, h']
      · rfl

/-- A served line is idle only when nothing waits. -/
theorem State.serveLine_served : s.serveLine.lineServed := by
  unfold State.serveLine State.lineServed
  repeat' split
  all_goals simp_all

/-- Replies only leave their list. -/
theorem State.serveLine_replies_le : s.serveLine.host.replies.length ≤ s.host.replies.length := by
  unfold State.serveLine
  repeat' split
  all_goals simp_all

/-- Serving the line keeps the report queue's subjects, or takes the first. -/
theorem State.serveLine_distinct (h : s.reportsDistinct) : s.serveLine.reportsDistinct := by
  unfold State.reportsDistinct State.serveLine at *
  repeat' split
  all_goals simp_all

@[simp] theorem State.dequeue_time (f : HostFrame) : (s.dequeue f).time = s.time := by
  unfold State.dequeue; repeat' (first | rfl | split)
@[simp] theorem State.dequeue_cfg (f : HostFrame) : (s.dequeue f).cfg = s.cfg := by
  unfold State.dequeue; repeat' (first | rfl | split)
@[simp] theorem State.dequeue_field (f : HostFrame) : (s.dequeue f).field = s.field := by
  unfold State.dequeue; repeat' (first | rfl | split)
@[simp] theorem State.dequeue_locking (f : HostFrame) : (s.dequeue f).locking = s.locking := by
  unfold State.dequeue; repeat' (first | rfl | split)
@[simp] theorem State.dequeue_claims (f : HostFrame) : (s.dequeue f).claims = s.claims := by
  unfold State.dequeue; repeat' (first | rfl | split)
@[simp] theorem State.dequeue_movement (f : HostFrame) : (s.dequeue f).movement = s.movement := by
  unfold State.dequeue; repeat' (first | rfl | split)
@[simp] theorem State.dequeue_links (f : HostFrame) : (s.dequeue f).links = s.links := by
  unfold State.dequeue; repeat' (first | rfl | split)
@[simp] theorem State.dequeue_boundaries (f : HostFrame) : (s.dequeue f).boundaries = s.boundaries := by
  unfold State.dequeue; repeat' (first | rfl | split)
@[simp] theorem State.dequeue_su (f : HostFrame) : (s.dequeue f).su = s.su := by
  unfold State.dequeue; repeat' (first | rfl | split)
@[simp] theorem State.dequeue_work (f : HostFrame) : (s.dequeue f).work = s.work := by
  unfold State.dequeue; repeat' (first | rfl | split)
@[simp] theorem State.dequeue_choices (f : HostFrame) : (s.dequeue f).choices = s.choices := by
  unfold State.dequeue; repeat' (first | rfl | split)
@[simp] theorem State.dequeue_pending (f : HostFrame) : (s.dequeue f).pending = s.pending := by
  unfold State.dequeue; repeat' (first | rfl | split)
@[simp] theorem State.dequeue_inputs (f : HostFrame) : (s.dequeue f).inputs = s.inputs := by
  unfold State.dequeue; repeat' (first | rfl | split)
@[simp] theorem State.dequeue_counters (f : HostFrame) : (s.dequeue f).host.counters = s.host.counters := by
  unfold State.dequeue; repeat' (first | rfl | split)
@[simp] theorem State.dequeue_replies (f : HostFrame) : (s.dequeue f).host.replies = s.host.replies := by
  unfold State.dequeue; repeat' (first | rfl | split)
@[simp] theorem State.dequeue_preparation (f : HostFrame) : (s.dequeue f).host.preparation = s.host.preparation := by
  unfold State.dequeue; repeat' (first | rfl | split)
@[simp] theorem State.dequeue_line (f : HostFrame) : (s.dequeue f).host.line = s.host.line := by
  unfold State.dequeue; repeat' (first | rfl | split)
@[simp] theorem State.dequeue_reports (f : HostFrame) : (s.dequeue f).reports = s.reports := by
  unfold State.dequeue; repeat' (first | rfl | split)

/-- A request leaves the head of the queue; nothing else does. -/
theorem State.dequeue_requests (f : HostFrame) :
    (s.dequeue f).host.requests = if s.host.requests.head? = some f then s.host.requests.tail else s.host.requests := by
  unfold State.dequeue
  split
  · rename_i g rest h
    by_cases k : f = g
    · simp [k, h]
    · simp [k, h, Ne.symm k]
  · rename_i h; simp [h]

/-! ### The end of an event -/

/-- With no change to be taken an event is over. -/
@[simp] theorem State.settle_idle (h : s.work = []) : s.settle = s := by
  unfold State.settle; simp [h]

/-- The end of an event that is no request is a `Steady` but for the line and the report queue's head. -/
theorem State.finish_outbox : s.finish.outbox = s.outbox := by
  have k := ((Keeps.refl s).settle).host
  unfold State.finish
  rw [State.serveLine_outbox]; unfold State.outbox; rw [k]

theorem State.finish_mode : s.su.mode.stricter s.finish.su.mode := by
  have k := ((Keeps.refl s).settle).mode
  unfold State.finish; simpa using k

theorem State.replied_outbox (f : HostFrame) (r : Reply) : (s.replied f r).outbox = s.outbox ++ [r] := by
  have k := ((Keeps.refl s).settle).host
  unfold State.replied
  rw [State.serveLine_outbox]; unfold State.outbox
  simp [State.addReply, k, List.append_assoc]

theorem State.replied_mode (f : HostFrame) (r : Reply) : s.su.mode.stricter (s.replied f r).su.mode := by
  have k := ((Keeps.refl s).settle).mode
  unfold State.replied; simpa using k

/-- A request is handled while fewer than 16 replies wait. -/
theorem State.serve_next (f : HostFrame) (owner : State → Answer) (h : s.host.replies.length < 16) :
    s.serve f owner = (owner s).state.replied f ((owner s).reply f) := by
  unfold State.serve State.mayHandOn
  simp [Config.replyGate, h]

/-- While 16 or more replies wait, none is. -/
theorem State.serve_wait (f : HostFrame) (owner : State → Answer) (h : 16 ≤ s.host.replies.length) : s.serve f owner = s := by
  unfold State.serve State.mayHandOn
  simp [Config.replyGate, Nat.not_lt.mpr h]

end Sys2Proof.Machine
end

