-- ==== Sys2Proof/Laws/Answers.lean ====
section
/-! SUPPORT. What the owners' answers leave alone, and the form of every command's outcome. -/

namespace Sys2Proof.Machine

set_option linter.unusedTactic false
set_option linter.unreachableTactic false

variable {σ τ : State}

theorem Steady.inService (h : Steady σ τ) {owner : State → Answer} (ho : Steady σ (owner τ).state) :
    Steady σ (inService τ owner).state := by
  unfold Machine.inService; split
  exacts [ho, h]

theorem Steady.queryAnswer (h : Steady σ τ) {b : List Byte} : Steady σ (queryAnswer b τ).state := by
  unfold Machine.queryAnswer
  repeat' (first | with_reducible exact h | split | dsimp only [done, badField, badLength, refuse])
theorem Steady.fieldAnswer (h : Steady σ τ) {b : List Byte} : Steady σ (fieldAnswer b τ).state := by
  unfold Machine.fieldAnswer; dsimp only [done, badLength, badField, refuse]
  split
  · exact h
  · split
    · exact Steady.runEntries (fun _ _ _ k hs => k.fieldEntry hs) h
    · exact h
theorem Steady.supplyAnswer (h : Steady σ τ) {b : List Byte} : Steady σ (supplyAnswer b τ).state := by
  unfold Machine.supplyAnswer; dsimp only [done, badLength, badField, refuse]
  split
  · exact h
  · split
    · exact Steady.runEntries (fun _ _ _ k hs => k.supplyEntry hs) h
    · exact h
theorem Steady.setRouteAnswer (h : Steady σ τ) {b : List Byte} : Steady σ (setRouteAnswer b τ).state := by
  unfold Machine.setRouteAnswer
  repeat' (first
    | with_reducible exact h | with_reducible exact h.next (Keeps.refl _).takeRoute | split
    | dsimp only [accepted, badLength, badField, refuse])
theorem Steady.commitGroupAnswer (h : Steady σ τ) {b : List Byte} : Steady σ (commitGroupAnswer b τ).state := by
  unfold Machine.commitGroupAnswer
  repeat' (first
    | with_reducible exact h | with_reducible exact h.next (.forEach (fun _ _ k => k.groupStep) (Keeps.refl _)) | split
    | dsimp only [done, badLength, badField, refuse])
theorem Steady.cancelGroupAnswer (h : Steady σ τ) {b : List Byte} : Steady σ (cancelGroupAnswer b τ).state := by
  unfold Machine.cancelGroupAnswer
  repeat' (first
    | with_reducible exact h | with_reducible exact h.next (.forEach (fun _ _ k => k.dropSlot) (Keeps.refl _)) | split
    | dsimp only [done, badLength, badField, refuse])
theorem Steady.cancelRouteAnswer (h : Steady σ τ) {b : List Byte} : Steady σ (cancelRouteAnswer b τ).state := by
  unfold Machine.cancelRouteAnswer
  repeat' (first
    | with_reducible exact h | with_reducible exact h.next (Keeps.refl _).dropSlot | exact h.next (Keeps.refl _).cancelSecured | split
    | dsimp only [done, badLength, badField, refuse])
theorem Keeps.throwOnRequest (h : Keeps σ τ) {p : Nat} {pos : Position} : Keeps σ (τ.throwOnRequest p pos).1 := by
  unfold State.throwOnRequest
  repeat' (first
    | with_reducible exact h | with_reducible apply Keeps.leaveFaulted | with_reducible apply Keeps.joinQueue
    | with_reducible apply Keeps.putThrow | with_reducible apply Keeps.examineGroup | split | dsimp only)
theorem Steady.pointThrowAnswer (h : Steady σ τ) {rq : Request} : Steady σ (pointThrowAnswer rq τ).state := by
  unfold Machine.pointThrowAnswer throwAnswer
  repeat' (first
    | with_reducible exact h | with_reducible exact h.next (Keeps.refl _).throwOnRequest | split
    | dsimp only [done, accepted, badLength, badField, refuse])
theorem Keeps.acknowledge (h : Keeps σ τ) {i : Nat} {ρ : State} (ha : τ.acknowledge i = some ρ) : Keeps σ ρ := by
  unfold State.acknowledge at ha
  repeat' split at ha
  all_goals cases ha
  all_goals exact h.putFault
theorem Steady.ackAnswer (h : Steady σ τ) {b : List Byte} : Steady σ (ackAnswer b τ).state := by
  unfold Machine.ackAnswer
  repeat' (first
    | with_reducible exact h | (rename_i ha; with_reducible exact h.next ((Keeps.refl _).acknowledge ha)) | split
    | dsimp only [done, badLength, badField, refuse])
theorem Steady.prepareAnswer (h : Steady σ τ) {rq : Request} : Steady σ (prepareAnswer rq τ).state := by
  unfold Machine.prepareAnswer prepare
  repeat' (first
    | with_reducible exact h | with_reducible exact h.putPreparation | split
    | dsimp only [done, badLength, badField, refuse])
theorem Steady.askDirectionAnswer (h : Steady σ τ) {b : List Byte} : Steady σ (askDirectionAnswer b τ).state := by
  unfold Machine.askDirectionAnswer askDirection
  repeat' (first
    | with_reducible exact h | with_reducible exact h.next (Keeps.refl _).hand.updBoundary | split
    | dsimp only [accepted, badLength, badField, refuse])
theorem Steady.refuseOfferAnswer (h : Steady σ τ) {b : List Byte} : Steady σ (refuseOfferAnswer b τ).state := by
  unfold Machine.refuseOfferAnswer
  repeat' (first
    | with_reducible exact h | with_reducible exact h.next (Keeps.refl _).handFor.updBoundary | split
    | dsimp only [done, badLength, badField, refuse])
theorem Steady.onLink (h : Steady σ τ) {b : List Byte} {act : Nat → State → Answer} (ha : ∀ l, Steady σ (act l τ).state) :
    Steady σ (onLink b act τ).state := by
  unfold Machine.onLink
  repeat' (first | with_reducible exact h | exact ha _ | split | dsimp only [badLength, badField, refuse])

theorem Steady.execRestore (h : Steady σ τ) {e : Nat} : Steady σ (execRestore e τ).state := by
  unfold Machine.execRestore
  repeat' (first | with_reducible exact h | with_reducible exact h.restore | split | dsimp only [done, refuse])
theorem Steady.execEmergency (h : Steady σ τ) {i : Nat} : Steady σ (execEmergency i τ).state := by
  have k : Steady σ (τ.enterTimedRelease i) := h.next (Keeps.refl _).enterTimedRelease
  unfold Machine.execEmergency
  repeat' (first | with_reducible exact h | with_reducible exact k | split | dsimp only [done, badField, refuse])
theorem Steady.execReleaseGiven (h : Steady σ τ) {l : Nat} : Steady σ (execReleaseGiven l τ).state := by
  unfold Machine.execReleaseGiven
  repeat' (first
    | with_reducible exact h | with_reducible exact h.next (.forEach (fun _ _ k => k.releaseGiven) (Keeps.refl _)) | split
    | dsimp only [done, refuse])

/-- The execution of an auxiliary command other than RESUME and RESTART. -/
theorem Steady.executeAux (h : Steady σ τ) {k : AuxKind} {n : Nat} (h1 : k ≠ .resume) (h2 : k ≠ .restart) :
    Steady σ (executeAux k n τ).state := by
  cases k
  · exact h.execRestore
  · exact h.execEmergency
  · exact h.execReleaseGiven
  · exact absurd rfl h1
  · exact absurd rfl h2

/-- A confirm of any auxiliary kind but RESUME and RESTART; and with ROUTINE authority one of any kind. -/
theorem Steady.confirm (h : Steady σ τ) {a : Authority} {k : Option AuxKind} {n : Nat}
    (hk : a = .auxiliary → k ≠ some .resume ∧ k ≠ some .restart) : Steady σ (confirm a k n τ).state := by
  unfold Machine.confirm
  split
  · exact h
  · rename_i ha
    have := hk (by cases a <;> simp_all)
    split
    · split
      · exact h.putPreparation.executeAux (by simp_all) (by simp_all)
      · exact h.putPreparation
    · exact h.putPreparation

/-- The effect of a telegram. -/
theorem Steady.telegramEffect (h : Steady σ τ) {l : Nat} {seq : Byte} {a : Arrival} {handle : State → State}
    (hh : ∀ ρ, Steady σ ρ → Steady σ (handle ρ)) :
    Steady σ (if (τ.receive l seq a).2 then handle (τ.receive l seq a).1.settle else (τ.receive l seq a).1) := by
  have k : Steady σ (τ.receive l seq a).1 := h.next (Keeps.refl _).receive
  split
  exacts [hh _ k.settle, k]

end Sys2Proof.Machine
end

