-- ==== Sys2Proof/Laws/Exec.lean ====
section
/-! SUPPORT. The form every command's outcome has: an ordinary command stays, or does something `Steady` and ends the event or
makes its reply. The others (reset, frames, the line, the configuration, RESUME and RESTART) are named by `Instr.ordinary`. -/

namespace Sys2Proof

open Machine in
/-- The commands whose outcome `exec_ends` describes. -/
def Instr.ordinary : Instr → Bool
  | .coldReset | .hostFrameReceived _ | .badFrame _ | .transmitLineFree | .configBegin _ | .elementDef _ | .routeDef _ | .linkDef _
  | .groupDef _ | .globalParams _ | .configEnd _ | .resume _ | .restart _ => false
  | .confirmAux rq => rq.authority == .routine || match body12 rq.body with
    | some (k, _) => AuxKind.ofCode k != some .resume && AuxKind.ofCode k != some .restart
    | none => true
  | _ => true

end Sys2Proof

namespace Sys2Proof.Machine

/-- How an ordinary command ends. -/
inductive Ends (s t : State) : Prop where
  /-- Nothing happens. -/
  | stays (h : t = s)
  /-- A link's record is written, and nothing is marked. -/
  | plain (h : Keeps s t) (hr : t.reports = s.reports)
  /-- An event that is no request. -/
  | event (u : State) (h : Steady s u) (ht : t = u.finish)
  /-- A request handled. -/
  | reply (u : State) (f : HostFrame) (r : Reply) (hs : s.host.replies.length < 16) (h : Steady s u) (ht : t = u.replied f r)

variable {s t : State}

theorem Ends.serve {f : HostFrame} {owner : State → Answer} (ho : Steady s (owner s).state) : Ends s (s.serve f owner) := by
  by_cases h : s.host.replies.length < 16
  · rw [State.serve_next _ _ _ h]; exact .reply _ _ _ h ho rfl
  · rw [State.serve_wait _ _ _ (Nat.not_lt.mp h)]; exact .stays rfl

theorem Ends.serveIn {f : HostFrame} {owner : State → Answer} (ho : Steady s (owner s).state) :
    Ends s (s.serve f (fun s => inService s owner)) := .serve ((Steady.refl s).inService ho)

theorem Ends.whenDue {b : Prop} [Decidable b] {u : State} (h : Steady s u) : Ends s (if b then u.finish else s) := by
  split
  exacts [.event _ h rfl, .stays rfl]

theorem Ends.telegram {l : Nat} {seq : Byte} {a : Arrival} {handle : State → State}
    (hh : ∀ ρ, Steady s ρ → Steady s (handle ρ)) : Ends s (s.telegram l seq a handle) :=
  .event _ ((Steady.refl s).telegramEffect hh) rfl

set_option linter.unusedTactic false in
set_option linter.unreachableTactic false in
/-- Every ordinary command. -/
theorem exec_ends {c : Instr} (hc : c.ordinary = true) (h : exec c s = .next t) : Ends s t := by
  have k := Keeps.refl s
  have w := Steady.refl s
  have next {ρ : State} (k : Keeps s ρ) : Steady s ρ := w.next k
  cases c <;> simp only [Instr.ordinary, Bool.false_eq_true] at hc <;> cases h
  case unknownKind f =>
    split
    · exact .stays rfl
    · refine .serve ?_
      unfold refuseHeader; split <;> exact w
  case ping => exact .serve w
  case query => exact .serve w.queryAnswer
  case fieldReport => exact .serveIn w.fieldAnswer
  case supplyReport => exact .serveIn w.supplyAnswer
  case withdrawalSupervisionExpiry => exact .whenDue w.withdrawalExpired
  case setRoute => exact .serveIn w.setRouteAnswer
  case commitGroup =>
    refine .serve ?_
    split
    exacts [w, w.inService w.commitGroupAnswer]
  case cancelGroup => exact .serveIn w.cancelGroupAnswer
  case cancelRoute => exact .serveIn w.cancelRouteAnswer
  case pendingTimerExpiry => exact .whenDue (next k.dropSlot)
  case provingTimerExpiry => exact .whenDue (next k.provingExpired)
  case overlapTimerExpiry => exact .whenDue (next k.overlapExpired)
  case approachTimerExpiry => exact .whenDue (next k.approachExpired)
  case emergencyTimerExpiry => exact .whenDue (next k.releaseSlot)
  case flankAskAnswerExpiry =>
    split
    · exact .whenDue (next k.nextCandidate)
    · exact .stays rfl
  case pointThrow => exact .serve w.pointThrowAnswer
  case throwTimerExpiry => exact .whenDue (next k.throwTimeout)
  case supplyLossTimerExpiry => exact .whenDue (next k.supplyTimeout)
  case ackFault => exact .serveIn w.ackAnswer
  case hostSilent => exact .whenDue w.silent
  case hostSilentLong => exact .whenDue w.silentLong
  case prepareAux => exact .serveIn w.prepareAnswer
  case auxWindowExpiry => exact .whenDue w.putPreparation
  case restoreSection => exact .serveIn (w.confirm fun _ => by simp)
  case emergencyRelease => exact .serveIn (w.confirm fun _ => by simp)
  case releaseGivenFlank => exact .serveIn (w.confirm fun _ => by simp)
  case askDirection =>
    refine .serve ?_
    split
    exacts [w, w.inService w.askDirectionAnswer]
  case refuseOffer => exact .serveIn w.refuseOfferAnswer
  case linkReset =>
    refine .serveIn (w.onLink fun l => ?_)
    split
    exacts [w, next k.goDown]
  case clearCounters => exact .serveIn (w.onLink fun l => next k.clearLinkCounters)
  case badTelegram => exact .event _ (next k.badTelegram) rfl
  case unknownKindTelegram =>
    refine .plain k.unknownTelegram ?_
    unfold State.unknownTelegram; split <;> rfl
  case telegramTransmitted => exact .plain k.telegramLeft rfl
  case sendTimerExpiry => exact .whenDue (next k.sendTimerExpired)
  case missWatchExpiry => exact .whenDue (next k.missed)
  case losTimerExpiry => exact .whenDue (next k.signalLost)
  case probe =>
    split
    exacts [.event _ (next k.receive) rfl, .event _ (next k.badTelegram) rfl]
  case state =>
    split
    exacts [.telegram fun ρ h => h.next (Keeps.refl ρ).takeState, .event _ (next k.badTelegram) rfl]
  case offer => exact .telegram fun ρ h => h.next (Keeps.refl ρ).takeOffer
  case accept => exact .telegram fun ρ h => h.next (Keeps.refl ρ).takeAccept
  case refuse => exact .telegram fun ρ h => h.next (Keeps.refl ρ).takeRefuse
  case offerAnswerExpiry =>
    split
    · exact .whenDue (next k.dropSlot)
    · exact .stays rfl
  case withdraw => exact .telegram fun ρ h => h.next (Keeps.refl ρ).takeWithdraw
  case released => exact .telegram fun ρ h => h.next (Keeps.refl ρ).takeReleased
  case occupiedBeyond => exact .telegram fun ρ h => h.next (Keeps.refl ρ).takeOccupiedBeyond
  case clearedBehind => exact .telegram fun ρ h => h.next (Keeps.refl ρ).takeClearedBehind
  case flankAsk => exact .telegram fun ρ h => h.next (Keeps.refl ρ).takeFlankAsk
  case flankGiven => exact .telegram fun ρ h => h.next (Keeps.refl ρ).takeFlankGiven
  case flankRefused => exact .telegram fun ρ h => h.next (Keeps.refl ρ).takeFlankRefused
  case flankWithdrawn => exact .telegram fun ρ h => h.next (Keeps.refl ρ).takeFlankWithdrawn
  case flankRelease => exact .telegram fun ρ h => h.next (Keeps.refl ρ).releaseGiven
  case dirAsk => exact .telegram fun ρ h => h.next (Keeps.refl ρ).takeDirAsk
  case dirGive => exact .telegram fun ρ h => h.next (Keeps.refl ρ).takeDirGive
  case dirDeny => exact .telegram fun ρ h => h.next (Keeps.refl ρ).takeDirDeny
  case directionTimerExpiry => exact .whenDue (next k.endAsking)
  case confirmAux rq =>
    refine .serveIn ?_
    unfold confirmAnswer; split
    · exact w
    · rename_i hb
      refine w.confirm fun ha => ?_
      simp_all

end Sys2Proof.Machine
end

