-- ==== Sys2Proof/Laws/Lines.lean ====
section
/-! SUPPORT. Laws of the receive sides: what taking a byte from a line writes, and what it leaves alone. -/

namespace Sys2Proof.Machine

variable (s : State)

/-- A port's receive side reads back as it was written, and every other port's as before. -/
theorem State.putPortInput_portInput (l m : Nat) (x : LineInput) :
    (s.putPortInput l x).portInput m = if m = l then x else s.portInput m := by
  unfold State.portInput State.putPortInput
  rw [Table.find_put]
  split <;> rfl

@[simp] theorem State.putPortInput_host (l : Nat) (x : LineInput) : (s.putPortInput l x).inputs.host = s.inputs.host := rfl

/-- Writing a port's receive side changes nothing but the receive sides. -/
theorem State.putPortInput_frame (l : Nat) (x : LineInput) :
    s.putPortInput l x = { s with inputs := (s.putPortInput l x).inputs } := rfl

/-- R165: the host receiver takes one thing from its line, and changes nothing but its receive side and the queue of commands. -/
theorem State.takeHostInput_frame :
    s.takeHostInput = { s with
      inputs := { s.inputs with host := (s.inputs.host.host s.time).1 }
      pending := (hostCommand (s.inputs.host.host s.time).2).toList } := rfl

/-- R122: a port's receiver takes one thing from its line, and changes nothing but its own receive side and the queue of commands. -/
theorem State.takePortInput_frame (l : Nat) :
    ∃ x c, s.takePortInput l = { s.putPortInput l x with pending := c } := by
  unfold State.takePortInput
  dsimp only
  split
  · exact ⟨_, s.pending, rfl⟩
  · exact ⟨_, _, rfl⟩

/-- With nothing arrived nothing is taken. -/
theorem LineInput.advance_nil (delimiter : Byte) (declared : Byte → Nat) (limit : Nat) (now : Time) (x : LineInput)
    (h : x.arrived = []) : x.advance delimiter declared limit now = (x, .nothing) := by
  simp [LineInput.advance, h]

end Sys2Proof.Machine
end

