-- ==== Sys2Proof/Tests/Slice0.lean ====
section
/-! SUPPORT. The model's own tests: an ill-formed command for each check of WellFormed, values worked out in the manual, one step
of each command, and for each statement with hypotheses a state and operands that meet them. -/

set_option Elab.async false

namespace Sys2Proof.Tests
open Sys2Proof.Machine

/-! ### WellFormed refuses -/

/-- A request with a body of `n` zero bytes. -/
def longRequest (n : Nat) : Request := ⟨1, .routine, List.replicate n 0⟩

theorem test_wellFormed_body_too_long : (Instr.ping (longRequest 250)).wellFormed = false ∧
    (Instr.ping (longRequest 249)).wellFormed = true := by decide +kernel
theorem test_wellFormed_frame_not_good : (Instr.hostFrameReceived [0x5A, 6, 1, 1, 0, 0]).wellFormed = false := by decide +kernel
theorem test_wellFormed_known_kind_is_no_unknown_kind :
    (Instr.unknownKind ⟨0x01, 0, some 1, []⟩).wellFormed = false ∧ (Instr.unknownKind ⟨0x01, 0, none, []⟩).wellFormed = true ∧
    (Instr.unknownKind ⟨0x77, 0, some 1, List.replicate 250 0⟩).wellFormed = false := by decide +kernel
theorem test_wellFormed_element_out_of_range :
    (Instr.withdrawalSupervisionExpiry 400).wellFormed = false ∧ (Instr.throwTimerExpiry 400).wellFormed = false ∧
    (Instr.offerAnswerExpiry 400).wellFormed = false ∧ (Instr.directionTimerExpiry 400).wellFormed = false := by decide +kernel
theorem test_wellFormed_slot_out_of_range :
    (Instr.pendingTimerExpiry 32).wellFormed = false ∧ (Instr.provingTimerExpiry 32).wellFormed = false ∧
    (Instr.overlapTimerExpiry 32).wellFormed = false ∧ (Instr.approachTimerExpiry 32).wellFormed = false ∧
    (Instr.emergencyTimerExpiry 32).wellFormed = false ∧ (Instr.flankAskAnswerExpiry 32 0).wellFormed = false ∧
    (Instr.flankAskAnswerExpiry 0 12).wellFormed = false := by decide +kernel
theorem test_wellFormed_group_out_of_range : (Instr.supplyLossTimerExpiry 8).wellFormed = false := by decide +kernel
theorem test_wellFormed_auxiliary_subject_too_wide :
    (Instr.restoreSection ⟨0, .auxiliary⟩ 65536).wellFormed = false ∧ (Instr.emergencyRelease ⟨0, .auxiliary⟩ 65536).wellFormed = false ∧
    (Instr.releaseGivenFlank ⟨0, .auxiliary⟩ 65536).wellFormed = false := by decide +kernel
theorem test_wellFormed_link_out_of_range :
    (Instr.badTelegram 4 .crc).wellFormed = false ∧ (Instr.unknownKindTelegram 4 0).wellFormed = false ∧
    (Instr.telegramTransmitted 4).wellFormed = false ∧ (Instr.sendTimerExpiry 4).wellFormed = false ∧
    (Instr.missWatchExpiry 4).wellFormed = false ∧ (Instr.losTimerExpiry 4).wellFormed = false ∧
    (Instr.probe 4 0 0 (List.replicate 16 0)).wellFormed = false ∧ (Instr.state 4 0 ⟨0, [], [], []⟩).wellFormed = false ∧
    (Instr.accept 4 0 0).wellFormed = false ∧ (Instr.dirAsk 4 0 0).wellFormed = false ∧
    (Instr.flankGiven 4 0 0).wellFormed = false := by decide +kernel
theorem test_wellFormed_fields_too_wide :
    (Instr.probe 0 0 0 [0]).wellFormed = false ∧ (Instr.state 0 0 ⟨256, [], [], []⟩).wellFormed = false ∧
    (Instr.state 0 0 ⟨0, List.replicate 17 0, [], []⟩).wellFormed = false ∧
    (Instr.state 0 0 ⟨0, [], List.replicate 17 0, []⟩).wellFormed = false ∧
    (Instr.state 0 0 ⟨0, [], [], List.replicate 9 ⟨0, 0, false, false, false⟩⟩).wellFormed = false ∧
    (Instr.state 0 0 ⟨0, [65536], [], []⟩).wellFormed = false ∧
    (Instr.state 0 0 ⟨0, [], [], [⟨0, 256, false, false, false⟩]⟩).wellFormed = false ∧
    (Instr.offer 0 0 65536 0 0).wellFormed = false ∧ (Instr.offer 0 0 0 256 0).wellFormed = false ∧
    (Instr.refuse 0 0 0 256).wellFormed = false ∧ (Instr.withdraw 0 0 256).wellFormed = false ∧
    (Instr.released 0 0 256).wellFormed = false ∧ (Instr.occupiedBeyond 0 0 65536).wellFormed = false ∧
    (Instr.flankAsk 0 0 65536 0 0).wellFormed = false ∧ (Instr.flankRelease 0 0 65536).wellFormed = false := by decide +kernel

/-! ### Values the manual works out -/

/-- R124: from 0xACE1 the first eight steps give 0x87 and leave 0x22AC. -/
theorem test_probe_first_byte : probeSteps 8 probeLoad = 0x22AC ∧ (probePattern probeLoad).head? = some 0x87 := by decide +kernel

/-- 06, 6.5 and 12.2: the measured speed, the speed used, the braking time and the release time of a computed release. -/
theorem test_approach_time_12_2 : measuredSpeed 450 18000 = 2500 ∧ ceilDiv (2500 * 110) 100 = 2750 ∧
    brakingMs 2750 50 = 55000 ∧ rawReleaseTime 2750 50 6000 = 610 := by decide +kernel

/-- R113: the clamp of the release time. -/
theorem test_clamp_bounds : clampTime 49 = (50, true) ∧ clampTime 50 = (50, false) ∧ clampTime 3000 = (3000, false) ∧
    clampTime 3001 = (3000, true) := by decide +kernel

/-- 00, 7.4: a CRC sent after the bytes it covers leaves the register at 0. -/
theorem test_crc16_residue : crc16 ([1, 2, 3] ++ crc16Bytes [1, 2, 3]) = 0 := by decide +kernel

/-- The check values of the two generators over "123456789" (public check values of CRC-16/CCITT-FALSE and CRC-32/BZIP2). -/
theorem test_crc_check_values : crc16 [0x31, 0x32, 0x33, 0x34, 0x35, 0x36, 0x37, 0x38, 0x39] = 0x29B1 ∧
    crc32 [0x31, 0x32, 0x33, 0x34, 0x35, 0x36, 0x37, 0x38, 0x39] = 0xFC891918 := by decide +kernel

/-- R179: a PING frame of eleven header and no body bytes: delimiter, length 7, kind, tag, authority, CRC. -/
theorem test_encode_ping : (encodeFrame ⟨0x01, 0x2A, some 1, []⟩).take 5 = [0x5A, 7, 0x01, 0x2A, 1] ∧
    (encodeFrame ⟨0x01, 0x2A, some 1, []⟩).length = 7 ∧
    judgeFrame (encodeFrame ⟨0x01, 0x2A, some 1, []⟩) = .good ⟨0x01, 0x2A, some 1, []⟩ := by decide +kernel

/-- R181: an OFFER's fields, each two-byte field most significant byte first. -/
theorem test_telegram_offer_fields : telegramOf 2 0x10 7 [0x00, 0xCC, 5, 1] = some (.offer 2 7 204 5 1) ∧
    telegramOf 2 0x10 7 [0x00, 0xCC, 5] = none := by decide +kernel

/-- The table gives no row any bits. -/
theorem test_no_word_is_a_command : decodeTableWord 8 1 = none ∧ State.reset.withFetchWord 8 1 = State.reset := by decide +kernel

/-! ### A small area, that of the manual's examples (2.7, 3.8, 12.1) -/

/-- A table from its entries. -/
def table {α : Type} (l : List (Nat × α)) : Table α := l.foldl (fun t p => t.put p.1 p.2) {}
/-- A routine request with a body. -/
def ask (body : List Byte) : Request := ⟨7, .routine, body⟩
/-- An auxiliary request with a body. -/
def aux (body : List Byte) : Request := ⟨7, .auxiliary, body⟩
/-- The header of an auxiliary command. -/
def hdr : Header := ⟨7, .auxiliary⟩
/-- A section last reported CLEAR. -/
def clear : SectionImage := { held := .clear, latest := some .clear }
/-- A signal proved at stop. -/
def atStop : SignalImage := ⟨.stopProven, .stopped⟩
/-- Route 40 of the example of 2.7, without its overlap. -/
def route40 : RouteDef :=
  ⟨.main, 7, 9, [12, 13], [⟨40, .reverse⟩], none, [⟨40, [.localPoint 44 .normal, .localSignal 20]⟩], [10, 11], 2500, 50, 6000, 600⟩
/-- Route 52 of the example of 3.8. -/
def route52 : RouteDef :=
  ⟨.main, 9, 61, [16, 17], [⟨46, .normal⟩], none, [⟨46, [.remote 2 118 .normal]⟩], [], 2500, 50, 6000, 600⟩
/-- The ENTRY route of 12.1. -/
def route70 : RouteDef := ⟨.entry, 204, 9, [220, 221], [], none, [], [], 3000, 50, 6000, 600⟩
/-- A route with an overlap. -/
def route41 : RouteDef := { route40 with cls := .main, points := [], overlap := some ⟨[15], [⟨41, .normal⟩], 300⟩, flank := [] }

/-- The configuration of the area. -/
def config : Configuration :=
  { elements := table ([10, 11, 12, 13, 15, 16, 17, 220, 221].map (fun e => (e, ElementDef.sect 450)) ++
      [7, 9, 20].map (fun g => (g, ElementDef.signal false none)) ++
      [(40, .point 13 0 false false none), (41, .point 15 0 false false none), (44, .point 11 0 false false none),
       (46, .point 16 0 true true (some 12000)), (61, .boundary 2 204 .exit 17), (62, .boundary 2 205 .both 17),
       (204, .boundary 2 61 .entry 220)])
    routes := table [(40, route40), (41, route41), (52, route52), (70, route70)]
    links := table [(2, ⟨250, 1000, 8, 3, 10000, true⟩)]
    groups := table [(0, 2)] }

/-- The area in NORMAL, everything clear, in position and proved at stop, point 40 to be moved for route 40, link 2 UP. -/
def area : State :=
  { State.reset with
    time := 600000
    cfg := config
    field :=
      { sections := table ([10, 11, 12, 13, 15, 16, 17, 220, 221].map (fun e => (e, clear)))
        points := table [(40, .reverse), (41, .normal), (44, .normal), (46, .normal)]
        signals := table [(7, atStop), (9, atStop), (20, atStop)]
        supplies := table [(0, .on)] }
    su := { mode := .normal, enableOut := true }
    links := table [(2, { state := .up })] }

/-- The state a command leaves. -/
def after (c : Instr) (s : State) : State := match exec c s with
  | .next u => u
  | _ => s

/-- The reply that a command on an idle line draws, as outcome, refusal code and data. -/
def said (c : Instr) (s : State) : Option (ReplyOutcome × Nat × List Byte) := match (after c s).host.line with
  | some (.reply r) => some (r.outcome, r.reason, r.data)
  | _ => none

/-- The area with nothing configured, in a mode. -/
def bare (m : Mode) : State := { State.reset with su := { mode := m } }
/-- The same state with an idle line, at a time. -/
def later (t : Time) (s : State) : State := { s with time := t, host := { s.host with line := none, replies := [] }, reports := [] }
/-- The area with route 40 set, in slot 0, OPEN. -/
def opened : State := later 610000 (after (.setRoute (ask [0, 40, 0])) area)
/-- The area with route 52 set, in slot 0, PENDING. -/
def offered : State := later 602000 (after (.setRoute (ask [0, 52, 0])) area)
/-- The area with the ENTRY route set, in slot 0, OPEN, and the neighbour's offer 5 accepted. -/
def entered : State := later 603000 (after (.offer 2 0 204 5 1) (after (.setRoute (ask [0, 70, 0])) area))
/-- The area with the first section of route 40 occupied, slot 0 PASSING. -/
def passing : State := later 620000 (after (.fieldReport (ask [0, 12, 1, 2])) opened)
/-- The opened slot approach locked, with section 11 occupied. -/
def approachLocked : State := later 630000 (after (.cancelRoute (ask [0])) (later 625000 (after (.fieldReport (ask [0, 11, 1, 2])) opened)))
/-- The area with an auxiliary command prepared. -/
def prepared (k : AuxKind) (subject : Nat) (s : State) : State := { s with host := { s.host with preparation := some ⟨k, subject, 700000⟩ } }
/-- The area with a link record in place of link 2's. -/
def withLink (k : Link) (s : State) : State := s.putLink 2 k
/-- The area with point 40 lying NORMAL, so that route 40 must move it. -/
def toMove : State := { area with field := { area.field with points := area.field.points.put 40 .normal } }
/-- The same with point 40 on its way. -/
def moving : State := later 601000 (after (.pointThrow (ask [0, 40, 2])) toMove)

/-! ### One step of each command -/

theorem test_coldReset : (after .coldReset { opened with pending := [.hostSilent] }) = { State.reset with pending := [.hostSilent] } := by
  decide +kernel
theorem test_hostFrameReceived : (after (.hostFrameReceived (encodeFrame ⟨0x01, 9, some 1, []⟩)) area).host.requests = [⟨0x01, 9, some 1, []⟩] ∧
    (after (.hostFrameReceived (encodeFrame ⟨0x01, 9, some 1, []⟩)) area).su.silenceFirst = .running 601000 := by decide +kernel
/-- R158: a good frame has every slot evaluated, so one that fell back at its proving timer opens again (R57). -/
theorem test_hostFrameReceived_evaluates : ((after (.provingTimerExpiry 0) opened).slot 0).state = .locked ∧
    ((after (.hostFrameReceived (encodeFrame ⟨0x01, 9, some 1, []⟩)) (after (.provingTimerExpiry 0) opened)).slot 0).state = .opened := by
  decide +kernel
theorem test_badFrame : (after (.badFrame .hunting) area).host.counters = ⟨0, 0, 0, 1, 0⟩ := by decide +kernel
theorem test_unknownKind : said (.unknownKind ⟨0x77, 9, some 1, []⟩) area = some (.refused, 2, []) := by decide +kernel
theorem test_transmitLineFree : (after .transmitLineFree { area with reports := [.slot 3, .device] }).reports = [.device] := by decide +kernel
theorem test_ping : said (.ping (ask [])) area = some (.done, 0, [0x00, 0x09, 0x27, 0xC0, 4]) := by decide +kernel
theorem test_query_refused : said (.query (ask [1, 0, 3])) area = some (.refused, 4, []) ∧
    said (.query (ask [7, 0, 0])) area = some (.refused, 5, [0, 0, 0]) := by decide +kernel
theorem test_configBegin : (after (.configBegin (ask [])) (bare .unconfigured)).su.mode = .configuring := by decide +kernel
theorem test_elementDef : (after (.elementDef (ask [0, 3, 1, 0x0F, 0xFF])) (bare .configuring)).cfg.elements.find 3 = some (.sect 4095) ∧
    said (.elementDef (ask [0, 3, 1, 0x10, 0x00])) (bare .configuring) = some (.refused, 5, [22, 0, 0]) := by decide +kernel
theorem test_routeDef : (after (.routeDef (ask (routeBody 41 route41))) (bare .configuring)).cfg.routes.find 41 = some route41 := by decide +kernel
theorem test_routeDef_2_7 : said (.routeDef (ask (routeBody 40 { route40 with flank := [⟨40, [.localPoint 40 .normal, .localSignal 20]⟩] })))
    (bare .configuring) = some (.refused, 5, [0, 40, loByte Field.flank.code, 0, 0]) := by decide +kernel
theorem test_linkDef : (after (.linkDef (ask [1, 0, 0, 0, 0, 0, 0, 0, 0, 2])) (bare .configuring)).cfg.links.find 1 =
    some ⟨250, 1000, 8, 3, 10000, false⟩ ∧
    said (.linkDef (ask [1, 0x02, 0x58, 0, 0, 0, 0, 0, 0, 2])) (bare .configuring) = some (.refused, 5, [32, 0, 0]) := by decide +kernel
theorem test_groupDef : (after (.groupDef (ask [7, 4])) (bare .configuring)).cfg.groups.find 7 = some 4 ∧
    said (.groupDef (ask [7, 5])) (bare .configuring) = some (.refused, 5, [41, 0, 0]) := by decide +kernel
theorem test_globalParams : (after (.globalParams (ask [1, 0, 0, 0x03, 0xE8])) (bare .configuring)).cfg.params.throwLimit = 1000 ∧
    said (.globalParams (ask [1, 0, 0, 0x03, 0xE7])) (bare .configuring) = some (.refused, 5, [51, 0, 0]) := by decide +kernel
theorem test_configEnd : (after (.configEnd (ask [0, 0, 0, 0, 0, 0])) (bare .configuring)).su.mode = .restricted ∧
    (after (.configEnd (ask [0, 1, 0, 0, 0, 0])) (bare .configuring)).su.mode = .unconfigured := by decide +kernel
theorem test_fieldReport : (after (.fieldReport (ask [0, 12, 1, 2])) area).sect 12 = ⟨.occupied, some .occupied, some 600000, none, .disarmed⟩ ∧
    said (.fieldReport (ask [0, 12, 1, 2, 1, 194, 1, 1])) area = some (.done, 0, [1, 1]) := by decide +kernel
theorem test_supplyReport : (after (.supplyReport (ask [0, 2])) area).supply 0 = .off ∧
    (after (.supplyReport (ask [0, 2])) moving).powerGroup 0 = ⟨[], .running 621000⟩ := by decide +kernel
theorem test_withdrawalSupervisionExpiry : (after (.withdrawalSupervisionExpiry 7)
    { area with field := { area.field with signals := area.field.signals.put 7 ⟨.proceedProven, .running 600000⟩ } }).su.mode = .safeHold := by
  decide +kernel
theorem test_setRoute_opens : (opened.slot 0).state = .opened ∧ opened.permission 7 = .proceed ∧ opened.claim 44 = some ⟨.normal, 1⟩ := by
  decide +kernel
theorem test_setRoute_offers_12_1 : (offered.slot 0).needs = ⟨false, true, true⟩ ∧ (offered.slot 0).pendingTimer = .running 620000 ∧
    (offered.link 2).sending = some (0, .flankAsk 0 118 1) ∧ (offered.link 2).queue = [.offer 204 0 1] := by decide +kernel
theorem test_commitGroup : ((after (.commitGroup (ask [3])) (later 604000 (after (.setRoute (ask [0, 40, 3])) area))).slot 0).state = .opened := by
  decide +kernel
theorem test_cancelGroup : ((after (.cancelGroup (ask [3])) (later 604000 (after (.setRoute (ask [0, 40, 3])) area))).slot 0) =
    { lastOutcome := .dropped .groupCancelled } := by decide +kernel
theorem test_cancelRoute_released : (after (.cancelRoute (ask [0])) opened).slot 0 = { lastOutcome := .released .cancelled } ∧
    (after (.cancelRoute (ask [0])) opened).lock 12 = none := by decide +kernel
theorem test_cancelRoute_approachLocked : (approachLocked.slot 0).state = .approachLocked ∧ (approachLocked.slot 0).rel.vUsed = some 2500 ∧
    (approachLocked.slot 0).rel.releaseTime = some 560 := by decide +kernel
theorem test_pendingTimerExpiry : (after (.pendingTimerExpiry 0) { offered with time := 620000 }).slot 0 =
    { lastOutcome := .dropped .timeout } := by decide +kernel
theorem test_provingTimerExpiry : ((after (.provingTimerExpiry 0) opened).su.causes) = [(.signalNotProven, .element 7)] := by decide +kernel
theorem test_overlapTimerExpiry : ((after (.overlapTimerExpiry 0) (passing.updRelease 0 (fun x =>
    { x with overlap := .timing, overlapTimer := .running 620000 }))).slot 0).rel.overlap = .released := by decide +kernel
theorem test_approachTimerExpiry : (after (.approachTimerExpiry 0) { approachLocked with time := 681000 }).slot 0 =
    { lastOutcome := .released .approachExpired } ∧
    (after (.approachTimerExpiry 0) { approachLocked with time := 680999 }).slot 0 = approachLocked.slot 0 := by decide +kernel
theorem test_emergencyTimerExpiry : (after (.emergencyTimerExpiry 0) { (after (.emergencyRelease hdr 0) (prepared .emergencyRelease 0 passing)) with
    time := 920000 }).slot 0 = { lastOutcome := .released .emergency } := by decide +kernel
theorem test_flankAskAnswerExpiry : (after (.flankAskAnswerExpiry 0 0) { offered with time := 610000 }).slot 0 =
    { lastOutcome := .dropped .flankUnavailable } := by decide +kernel
theorem test_pointThrow : (moving.throwOf 40).state = .moving ∧ (moving.throwOf 40).timer = .running 608000 ∧
    said (.pointThrow (ask [0, 46, 2])) area = some (.refused, 14, []) := by decide +kernel
theorem test_throwTimerExpiry : ((after (.throwTimerExpiry 40) { moving with time := 608000 }).throwOf 40).state = .faulted ∧
    (after (.throwTimerExpiry 40) { moving with time := 608000 }).su.mode = .restricted := by decide +kernel
theorem test_supplyLossTimerExpiry : ((after (.supplyLossTimerExpiry 0) { (after (.supplyReport (ask [0, 2])) moving) with time := 621000 }).throwOf 40).reason =
    some .supplyTimeout := by decide +kernel
theorem test_ackFault : ((after (.ackFault (ask [0])) (area.raiseNow .linkDown (.link 2))).su.faults.find 0).map FaultRecord.state = some .acked ∧
    said (.ackFault (ask [1])) (area.raiseNow .linkDown (.link 2)) = some (.refused, 4, []) := by decide +kernel
theorem test_hostSilent : (after .hostSilent { area with su := { area.su with silenceFirst := .running 600000 } }).su.mode = .restricted := by decide +kernel
theorem test_hostSilentLong : (after .hostSilentLong { area with su := { area.su with silenceSecond := .running 600000 } }).su.enableOut = false := by
  decide +kernel
theorem test_prepareAux : said (.prepareAux (aux [1, 0, 12])) area = some (.done, 0, [0x00, 0x09, 0x4E, 0xD0]) ∧
    said (.prepareAux (ask [1, 0, 12])) area = some (.refused, 14, []) := by decide +kernel
theorem test_auxWindowExpiry : (after .auxWindowExpiry { prepared .resume 0 area with time := 700000 }).host.preparation = none := by decide +kernel
theorem test_restoreSection_1_7 : ((after (.restoreSection hdr 13) (prepared .restoreSection 13
    { area with field := { area.field with sections := area.field.sections.put 13 ⟨.disturbed, some .clear, none, none, .disarmed⟩ } })).sect 13) =
    ⟨.clear, some .clear, none, some 600000, .disarmed⟩ := by decide +kernel
theorem test_emergencyRelease : ((after (.emergencyRelease hdr 0) (prepared .emergencyRelease 0 passing)).slot 0).state = .timedRelease ∧
    (after (.emergencyRelease hdr 0) (prepared .emergencyRelease 0 passing)).claim 44 = some ⟨.normal, 1⟩ := by decide +kernel
theorem test_releaseGivenFlank : (after (.releaseGivenFlank hdr 2) (prepared .releaseGivenFlank 2 ((withLink { state := .proving, given :=
    [⟨37, 46, .normal, true, false⟩] } area).putClaim 46 (some ⟨.normal, 1⟩)))).claim 46 = none := by decide +kernel
theorem test_resume : (after (.resume hdr) (prepared .resume 0 { area with su := { mode := .safeHold, overflow := true } })).su =
    { mode := .restricted, enableOut := true } ∧ (after (.resume hdr) (prepared .resume 0 { area with su := { mode := .restricted } })).su.mode = .normal := by
  decide +kernel
theorem test_restart : (after (.restart hdr) (prepared .restart 0 opened)).su.mode = .startup ∧
    (after (.restart hdr) (prepared .restart 0 opened)).field.outstanding = 17 := by decide +kernel
theorem test_askDirection : ((after (.askDirection (ask [0, 62])) (area.updBoundary 62 (fun b => { b with direction := .inbound }))).boundary 62) =
    { direction := .asking, dirTimer := .running 610000 } ∧ said (.askDirection (ask [0, 62])) area = some (.refused, 12, []) := by decide +kernel
theorem test_refuseOffer : said (.refuseOffer (ask [0, 204])) entered = some (.refused, 6, []) ∧
    (after (.refuseOffer (ask [0, 204])) (after (.offer 2 0 204 5 1) area)).boundary 204 = {} := by decide +kernel
theorem test_linkReset : ((after (.linkReset (aux [2])) area).link 2).state = .proving ∧
    said (.linkReset (ask [2])) area = some (.refused, 14, []) := by decide +kernel
theorem test_clearCounters : ((after (.clearCounters (ask [2])) (withLink { state := .up, counters := ⟨1, 2, 3, 4, 5, 6, 7⟩ } area)).link 2).counters =
    ⟨0, 0, 0, 0, 0, 0, 0⟩ := by decide +kernel
theorem test_badTelegram : ((after (.badTelegram 2 .length) area).link 2).state = .suspect ∧
    ((after (.badTelegram 2 .length) area).link 2).counters.length = 1 := by decide +kernel
theorem test_unknownKindTelegram : ((after (.unknownKindTelegram 2 9) area).link 2) = { state := .up, counters := ⟨0, 0, 0, 0, 0, 0, 1⟩, lastSeq := some 9 } := by
  decide +kernel
theorem test_telegramTransmitted : ((after (.telegramTransmitted 2) offered).link 2).sending = some (1, .offer 204 0 1) := by decide +kernel
theorem test_sendTimerExpiry : ((after (.sendTimerExpiry 2) (withLink { state := .up, sendTimer := .running 600000 } area)).link 2).sending =
    some (0, .state ⟨4, [], [], [⟨204, 2, false, false, false⟩, ⟨205, 1, false, false, false⟩, ⟨61, 3, false, false, false⟩]⟩) := by decide +kernel
theorem test_missWatchExpiry : ((after (.missWatchExpiry 2) (withLink { state := .up, missWatch := .running 600000 } area)).link 2).missWatch =
    .running 600375 := by decide +kernel
theorem test_losTimerExpiry : ((after (.losTimerExpiry 2) (withLink { state := .up, losTimer := .running 600000 } area)).link 2).state = .proving ∧
    (after (.losTimerExpiry 2) (withLink { state := .up, losTimer := .running 600000 } area)).su.causes = [(.linkDown, .link 2)] := by decide +kernel
theorem test_probe_completes_the_run : ((after (.probe 2 4 0 (probePattern 0xACE1))
    (withLink { state := .proving, checker := 0xACE1, cleanRun := 7, lastSeq := some 3 } area)).link 2).state = .up := by decide +kernel
theorem test_probe_in_up : ((after (.probe 2 4 0 (probePattern 0xACE1)) area).link 2).state = .proving := by decide +kernel
theorem test_state_releases_unlisted_claim_4_10 : (after (.state 2 0 ⟨4, [12, 80], [], []⟩) ((withLink { state := .up, given :=
    [⟨37, 46, .normal, true, false⟩] } area).putClaim 46 (some ⟨.normal, 1⟩))).claim 46 = none := by decide +kernel
/-- Slot 0 with LOST flank that point 44 would give in NORMAL, slot 1 with flank HELD abroad that 44 would give in REVERSE, and a claim on
44 given to the neighbour. -/
def rivals : State :=
  { area with
    cfg := { config with routes := table [(40, route40), (53, { route52 with flank := [⟨46, [.localPoint 44 .reverse, .remote 2 118 .normal]⟩] })] }
    locking := { slots := table [(0, { state := .locked, route := some 40, requirements := [{ state := .lost }] }),
                                 (1, { state := .locked, route := some 53, requirements := [{ state := .held, candidate := some 1 }] })] }
    claims := table [(44, ⟨.reverse, 1⟩)]
    links := table [(2, { state := .up, given := [⟨80, 44, .reverse, true, false⟩] })] }
/-- R69: the searches of one STATE go in slot id order, whether its lists make them or the claim it releases prompts them. -/
theorem test_state_searches_in_order : ((after (.state 2 0 ⟨4, [], [], []⟩) rivals).requirement 0 0).map Requirement.state = some .held ∧
    (after (.state 2 0 ⟨4, [], [], []⟩) rivals).claim 44 = some ⟨.normal, 1⟩ ∧
    ((after (.state 2 0 ⟨4, [], [], []⟩) rivals).requirement 1 0).map Requirement.state = some .asked := by decide +kernel
/-- R71: the pause of a throw timer is no event that searches a LOST requirement again; a change of the point's detection is one. -/
theorem test_pause_is_no_search :
    let s : State := { rivals with claims := {}, links := {}, movement := { area.movement with throws := table [(44, ⟨.moving, some ⟨.normal, true⟩, .running 608000, none⟩)] } }
    ((after (.supplyReport (ask [0, 2])) s).throwOf 44).timer = .paused 8000 ∧
    ((after (.supplyReport (ask [0, 2])) s).requirement 0 0).map Requirement.state = some .lost ∧
    ((after (.fieldReport (ask [0, 44, 2, 3])) s).requirement 0 0).map Requirement.state = some .held := by decide +kernel
theorem test_state_direction : ((after (.state 2 0 ⟨4, [], [], [⟨62, 1, false, false, false⟩]⟩) area).boundary 62).direction = .outbound := by
  decide +kernel
theorem test_offer_12_1 : (after (.offer 2 0 204 5 1) area).boundary 204 = { incoming := some ⟨5, 1, false⟩ } ∧
    ((entered.slot 0).hasBeenOpened = true) := by decide +kernel
theorem test_accept : ((after (.accept 2 0 0) offered).slot 0).needs = ⟨false, false, true⟩ := by decide +kernel
theorem test_refuse : (after (.refuse 2 0 0 3) offered).slot 0 = { lastOutcome := .dropped .refused, neighbourReason := some 3 } := by decide +kernel
theorem test_offerAnswerExpiry : (after (.offerAnswerExpiry 61) { offered with time := 610000 }).slot 0 = { lastOutcome := .dropped .offerTimeout } := by
  decide +kernel
theorem test_withdraw : (after (.withdraw 2 1 5) entered).boundary 204 = { entrySlot := some 0 } ∧
    (after (.withdraw 2 0 0) (after (.accept 2 0 0) offered)).slot 0 = { lastOutcome := .dropped .cancelled } := by decide +kernel
theorem test_released_8_8 : (after (.released 2 1 5) (after (.cancelRoute (ask [0])) entered)).slot 0 = { lastOutcome := .released .cancelled } := by
  decide +kernel
theorem test_occupiedBeyond : (after (.occupiedBeyond 2 0 61) area).boundary 61 = {} := by decide +kernel
theorem test_clearedBehind : ((after (.clearedBehind 2 1 204) (later 605000 (after (.fieldReport (ask [0, 220, 1, 2])) entered))).slot 0).rel.clearedBehind =
    true := by decide +kernel
theorem test_flankAsk_12_1 : (after (.flankAsk 2 0 80 40 1) area).claim 40 = some ⟨.normal, 1⟩ ∧
    ((after (.flankAsk 2 0 80 40 1) area).throwOf 40).state = .moving := by decide +kernel
theorem test_flankGiven : ((after (.flankGiven 2 0 0) offered).requirement 0 0).map Requirement.state = some .held ∧
    ((after (.flankGiven 2 0 80) area).link 2).sending = some (0, .flankRelease 80) := by decide +kernel
theorem test_flankRefused : (after (.flankRefused 2 0 0) offered).slot 0 = { lastOutcome := .dropped .flankUnavailable } := by decide +kernel
theorem test_flankWithdrawn : (after (.flankWithdrawn 2 0 0) offered).slot 0 = { lastOutcome := .dropped .flankUnavailable } := by decide +kernel
theorem test_flankRelease_12_1 : (after (.flankRelease 2 1 80) (after (.flankAsk 2 0 80 40 1) area)).claim 40 = none := by decide +kernel
theorem test_dirAsk : ((after (.dirAsk 2 0 62) (area.updBoundary 62 (fun b => { b with direction := .outbound }))).boundary 62).direction = .inbound ∧
    ((after (.dirAsk 2 0 62) area).link 2).sending = some (0, .dirDeny 205) := by decide +kernel
theorem test_dirGive : ((after (.dirGive 2 0 62) (area.updBoundary 62 (fun b => { b with direction := .asking }))).boundary 62).direction = .outbound := by
  decide +kernel
theorem test_dirDeny : ((after (.dirDeny 2 0 62) (area.updBoundary 62 (fun b => { b with direction := .asking }))).boundary 62).direction = .inbound := by
  decide +kernel
theorem test_directionTimerExpiry : ((after (.directionTimerExpiry 62)
    (area.updBoundary 62 (fun b => { b with direction := .asking, dirTimer := .running 600000 }))).boundary 62).direction = .inbound := by decide +kernel
theorem test_confirmAux : said (.confirmAux (aux [4, 0, 0])) area = some (.refused, 15, []) ∧
    (after (.confirmAux (aux [5, 0, 0])) (prepared .resume 0 area)).host.preparation = none := by decide +kernel

/-! ### A state and operands that meet the hypotheses of each statement -/

/-- A frame with a body of 249 bytes, the longest. -/
def longFrame : HostFrame := ⟨0x77, 1, some 0xFF, List.replicate 249 0⟩
/-- The area with a number of replies and of requests waiting, the line busy. -/
def busy (replies requests : Nat) : State :=
  { area with host := { area.host with
      replies := List.replicate replies ⟨1, .done, 0, 1, []⟩, line := some (.reply ⟨1, .done, 0, 1, []⟩)
      requests := List.replicate requests ⟨0x01, 9, some 1, []⟩ } }
/-- The area in SAFE_HOLD for a CRITICAL fault. -/
def inSafeHold : State := { (area.raiseNow .signalWrongSide (.element 7)) with work := [] }
/-- The area in another mode. -/
def inMode (m : Mode) : State := { area with su := { mode := m, enableOut := m.enabled } }

theorem witness_StepTakesTheFront : { area with pending := [.hostSilent, .coldReset] }.pending = .hostSilent :: [.coldReset] := by decide +kernel
theorem witness_IdleTakesWhatIsDue : area.pending = [] ∧ area.handOn ++ area.dueTimers = [] ∧ (busy 15 1).pending = [] ∧
    (busy 15 1).handOn ++ (busy 15 1).dueTimers ≠ [] := by decide +kernel
theorem witness_FramesAreRead : longFrame.body.length ≤ 249 ∧ (longFrame.authority = none → longFrame.body = []) ∧
    [(0 : Byte), 0] ≠ crc16Bytes (loByte ((frameInner ⟨1, 1, none, []⟩).length + 4) :: frameInner ⟨1, 1, none, []⟩) ∧
    (0 : Byte) ≠ frameDelimiter ∧ 5 < (encodeFrame ⟨1, 1, none, []⟩).length := by decide +kernel
theorem witness_TelegramsDecode : (Telegram.probe 255 (List.replicate 16 0)).fits = true ∧ (Telegram.offer 399 31 3).fits = true ∧
    (Telegram.state ⟨5, [511], [0], [⟨399, 4, true, true, true⟩]⟩).fits = true ∧ (Telegram.dirDeny 65535).fits = true := by decide +kernel
theorem witness_RequestsAreHandedOn : (busy 15 1).host.requests = [⟨0x01, 9, some 1, []⟩] ∧ 16 ≤ (busy 16 1).host.replies.length ∧
    (busy 1 0).host.replies = ⟨1, .done, 0, 1, []⟩ :: [] ∧ { area with reports := [.device] }.host.replies = [] ∧
    { area with reports := [.device] }.reports = .device :: [] ∧ area.host.replies = [] ∧ area.reports = [] := by decide +kernel
theorem witness_ReplyIsMade : (busy 0 2).host.requests = ⟨0x01, 9, some 1, []⟩ :: [⟨0x01, 9, some 1, []⟩] ∧
    (busy 0 1).host.requests.head? ≠ some ⟨0x02, 9, some 1, []⟩ ∧ area.work = [] := by decide +kernel

theorem witness_EnableOutFollowsTheMode : area.enableAgrees ∧ inSafeHold.enableAgrees ∧ ∃ t, step area = .next t :=
  ⟨by unfold State.enableAgrees; decide +kernel, by unfold State.enableAgrees; decide +kernel, _, rfl⟩
theorem witness_SafeHoldIsKept : inSafeHold.faultListWhole ∧ inSafeHold.holdsSafe ∧ inSafeHold.causeOfClass .critical = true ∧
    ∃ t, step inSafeHold = .next t :=
  ⟨by unfold State.faultListWhole; decide +kernel, by unfold State.holdsSafe; decide +kernel, by decide +kernel, _, rfl⟩
theorem witness_TablesStayWhole : (busy 24 8).hostBounded ∧ (busy 24 8).lineServed ∧
    { area with reports := [.device, .slot 0] }.reportsDistinct ∧ area.paramsInRange ∧ inSafeHold.faultListWhole ∧
    ∃ t, step (busy 24 8) = .next t :=
  ⟨by unfold State.hostBounded; decide +kernel, by unfold State.lineServed; decide +kernel,
    by unfold State.reportsDistinct; decide +kernel, fun p => by cases p <;> decide,
    by unfold State.faultListWhole; decide +kernel, _, rfl⟩
theorem witness_ConfigurationStands : (∃ t, exec (.globalParams (aux [10, 0, 0, 0, 1])) area = .next t) ∧ area.su.mode.inService = true :=
  ⟨⟨_, rfl⟩, by decide +kernel⟩
theorem witness_ModesAreEnteredByCommand : (inMode .safeHold).su.mode = .safeHold ∧
    (after (.resume hdr) (prepared .resume 0 (inMode .safeHold))).su.mode = .restricted ∧ (inMode .restricted).su.mode ≠ .normal ∧
    (after (.resume hdr) (prepared .resume 0 (inMode .restricted))).su.mode = .normal := by decide +kernel
theorem witness_FramesAreTaken : judgeFrame (encodeFrame ⟨1, 1, none, []⟩) = .good ⟨1, 1, none, []⟩ ∧ area.su.mode.inService = true ∧
    (bare .configuring).su.mode.inService = false ∧ (busy 0 7).host.requests.length < 8 ∧ ¬ (busy 24 8).host.requests.length < 8 ∧
    (busy 23 8).host.replies.length < 24 ∧ ¬ (busy 24 8).host.replies.length < 24 ∧
    judgeFrame [0x5A, 6, 1, 1, 0, 0] = .bad .crc ∧ judgeFrame [0x5A, 5] = .bad .length ∧ judgeFrame [0] = .noFrame := by decide +kernel
theorem witness_RequestsAreRefused : (busy 15 0).host.replies.length < 16 ∧
    ((0x77 : Byte).toNat ∉ requestKinds.map Prod.fst) ∧ ((0x42 : Byte).toNat ∈ requestKinds.map Prod.fst) ∧
    (none : Option Byte) ≠ some 1 ∧ (none : Option Byte) ≠ some 2 ∧ (bare .unconfigured).su.mode = .unconfigured ∧
    (bare .configuring).su.mode = .configuring ∧ area.su.mode ≠ .configuring ∧ area.su.mode ≠ .unconfigured ∧
    inSafeHold.su.mode = .safeHold := by decide +kernel
theorem witness_PingAndQueryAnswer : area.host.replies.length < 16 ∧ (ask [1, 0, 7]).body = [1, 0, 7] ∧ num2 0 7 ≤ 399 ∧
    area.su.mode.inService = true ∧ (area.defn (num2 0 7)).isSome = true ∧ num2 0 31 ≤ 31 ∧ num2 0 3 ≤ 3 ∧
    area.isBoundary (num2 0 61) = true ∧ area.isBoundary (num2 0 7) = false ∧ area.defn (num2 1 143) = none ∧ num2 1 143 ≤ 399 ∧
    (bare .unconfigured).su.mode.inService = false ∧ 399 < num2 1 144 ∧ 31 < num2 0 32 ∧ 3 < num2 0 4 ∧ (6 : Byte) < 7 ∧
    (ask []).body.length ≠ 3 := by decide +kernel
theorem witness_ConfigurationIsEmptied : (bare .unconfigured).host.replies.length < 16 ∧ (bare .unconfigured).su.mode = .unconfigured ∧
    (bare .configuring).su.mode = .configuring ∧ (ask [0, 1, 0, 0, 0, 0]).body = [0, 1, 0, 0, 0, 0] ∧ (ask [0]).body.length ≠ 6 ∧
    num2 0 1 ≠ (bare .configuring).cfg.stored.length ∧ num2 0 0 = (bare .configuring).cfg.stored.length ∧
    num4 0 0 0 1 ≠ (crc32 ((bare .configuring).cfg.stored.flatMap StoredRecord.body)).toNat ∧
    num4 0 0 0 0 = (crc32 ((bare .configuring).cfg.stored.flatMap StoredRecord.body)).toNat ∧
    { bare .configuring with cfg := { config with elements := config.elements.drop 17 } }.elementFailure.isSome = true ∧
    (bare .configuring).elementFailure = none ∧
    { bare .configuring with cfg := { config with elements := config.elements.drop 10 } }.elementFailure = none ∧
    { bare .configuring with cfg := { config with elements := config.elements.drop 10 } }.routeFailure.isSome = true ∧
    (bare .configuring).routeFailure = none ∧
    { bare .configuring with cfg := { params := { silence2 := 1999 } } }.cfg.params.silence2 < 2 * (1000 : Nat) := by decide +kernel
theorem witness_ElementRecords : (bare .configuring).host.replies.length < 16 ∧ (bare .unconfigured).su.mode ≠ .configuring ∧
    (bare .configuring).su.mode = .configuring ∧ (ask [0, 0]).body.length < 3 ∧ (ask [1, 144, 1]).body = [1, 144, 1] ∧ 399 < num2 1 144 ∧
    num2 1 143 ≤ 399 ∧ (4 : Byte) < 5 ∧ ([0] : List Byte).length ≠ 2 ∧ (ask [0, 0, 1, 0, 1]).body = [0, 0, 1, 0, 1] ∧
    (ask [0, 0, 2, 0, 1, 7, 3, 3, 232]).body = [0, 0, 2, 0, 1, 7, 3, 3, 232] ∧ (ask [0, 0, 3, 2, 1, 244]).body = [0, 0, 3, 2, 1, 244] ∧
    (ask [0, 0, 4, 3, 1, 143, 3, 0, 1]).body = [0, 0, 4, 3, 1, 143, 3, 0, 1] := by decide +kernel
theorem witness_RouteRecordsAreSound : readRouteDef (routeBody 255 route41) = .ok (255, route41) ∧
    readRouteDef (routeBody 40 route40) = .ok (40, route40) ∧ readRouteDef (routeBody 52 route52) = .ok (52, route52) := by decide +kernel
theorem witness_RouteDef_sound : route40.sound where
  ends := by decide
  path := by decide
  points := by decide
  overlap := fun _ h => by cases h
  flank := by
    refine ⟨by decide, fun q hq => ?_⟩
    simp only [route40, List.mem_singleton] at hq
    subst hq
    refine ⟨by decide, by decide, by decide, fun c hc => ?_⟩
    simp only [List.mem_cons, List.not_mem_nil, or_false] at hc
    rcases hc with rfl | rfl <;> simp [RouteDef.mayUse] <;> decide
  candidates := by decide
  approach := by decide
  times := by decide
theorem witness_RouteRecordsAreStored : (bare .configuring).host.replies.length < 16 ∧ (bare .configuring).su.mode = .configuring ∧
    readRouteDef (ask (routeBody 40 route40)).body = .ok (40, route40) ∧
    readRouteDef (routeBody 40 { route40 with path := [] }) = .error ⟨.path, 0, 0⟩ ∧ (List.replicate 20 (0 : Byte)).length < 21 ∧
    241 < (List.replicate 242 (0 : Byte)).length := by decide +kernel
theorem witness_LinkRecords : (bare .configuring).host.replies.length < 16 ∧ (bare .unconfigured).su.mode ≠ .configuring ∧
    (bare .configuring).su.mode = .configuring ∧ (ask [0]).body.length ≠ 10 ∧
    (ask [3, 0, 100, 0, 200, 3, 2, 3, 232, 1]).body = [3, 0, 100, 0, 200, 3, 2, 3, 232, 1] ∧ area.su.mode.inService = true ∧
    (after (.setRoute (ask [0, 40, 0])) area).cfg.links = area.cfg.links := by decide +kernel
theorem witness_GroupsAndParametersAreStored : (bare .configuring).host.replies.length < 16 ∧ (bare .configuring).su.mode = .configuring ∧
    (ask [0]).body.length ≠ 2 ∧ (ask [7, 4]).body = [7, 4] ∧ 1 ≤ [(Param.throwLimit, 1000)].length ∧
    ([(Param.throwLimit, 1000)].map Prod.fst).Nodup ∧ (∀ x ∈ [(Param.throwLimit, 1000)], x.2 < 4294967296) ∧
    (ask [1, 0, 0, 3, 232]).body = [(Param.throwLimit, 1000)].flatMap (fun x => loByte x.1.code :: bytes4 x.2) ∧
    (∀ x ∈ [(Param.throwLimit, 1000)], x.1.least ≤ x.2 ∧ x.2 ≤ x.1.greatest) ∧
    [(Param.throwLimit, 1000), (.majorLimit, 9)] = [(Param.throwLimit, 1000)] ++ (.majorLimit, 9) :: [] ∧
    Param.majorLimit.greatest < 9 := by decide +kernel
theorem witness_ParametersChangeInService : area.host.replies.length < 16 ∧ area.su.mode.inService = true ∧
    (ask [1, 0, 0, 3, 232]).authority = .routine ∧ (aux [1, 0, 0, 3, 231]).authority = .auxiliary ∧
    (aux [1, 0, 0, 3, 231]).body = [(Param.throwLimit, 999)].flatMap (fun x => loByte x.1.code :: bytes4 x.2) ∧
    (after (.globalParams (aux [1, 0, 0, 3, 231])) area).cfg.params.throwLimit = 1000 := by decide +kernel
theorem witness_ConfigEndStartsThePart : (bare .configuring).host.replies.length < 16 ∧ (bare .configuring).su.mode = .configuring ∧
    { bare .configuring with cfg := config }.elementFailure = none ∧ { bare .configuring with cfg := config }.routeFailure = none ∧
    num2 0 0 = config.stored.length ∧ num4 0 0 0 0 = (crc32 (config.stored.flatMap StoredRecord.body)).toNat ∧
    2 * config.params.silence1 ≤ config.params.silence2 ∧ config.links.find 2 ≠ none ∧ config.links.find 0 = none ∧
    (area.link 2).sending = none := by decide +kernel

/-- The area with a section's record replaced. -/
def withSection (e : Nat) (x : SectionImage) (s : State) : State := { s with field := { s.field with sections := s.field.sections.put e x } }
/-- The area with a signal's record replaced. -/
def withSignal (g : Nat) (x : SignalImage) (s : State) : State := { s with field := { s.field with signals := s.field.signals.put g x } }
/-- The area with a point's detection replaced. -/
def withPoint (p : Nat) (d : Detection) (s : State) : State := { s with field := { s.field with points := s.field.points.put p d } }
/-- The area with a throw record replaced. -/
def withThrow (p : Nat) (t : Throw) (s : State) : State := { s with movement := { s.movement with throws := s.movement.throws.put p t } }
/-- The area with a slot replaced. -/
def withSlot (i : Nat) (x : Slot) (s : State) : State := { s with locking := { s.locking with slots := s.locking.slots.put i x } }
/-- The area with a boundary element's record replaced. -/
def withBoundary (e : Nat) (b : Boundary) (s : State) : State := { s with boundaries := s.boundaries.put e b }

theorem no_queues (s : State) (h : s.movement.groups.entries = []) (g : Nat) : (s.powerGroup g).queue = [] := by
  simp [State.powerGroup, Table.find, h, lookupKey]

theorem witness_SectionReports : area.host.replies.length < 16 ∧ area.su.mode.inService = true ∧ (ask [0, 12, 1, 3]).body = [0, 12, 1, 3] ∧
    area.defn (num2 0 12) = some (.sect 450) ∧ (area.sect 12).latest = some .clear ∧ (area.sect 12).latest ≠ some .disturbed ∧
    (withSection 12 {} (inMode .startup)).su.mode = .startup ∧ ((withSection 12 {} (inMode .startup)).sect 12).latest = none ∧
    (withSection 12 {} (inMode .startup)).field.outstanding ≤ 1 := by decide +kernel
theorem witness_PointReports : (area.host.replies.length < 16 ∧ area.su.mode.inService = true ∧ (ask [0, 40, 2, 4]).body = [0, 40, 2, 4] ∧
    area.defn (num2 0 40) = some (.point 13 0 false false none) ∧ area.detection 40 = .reverse ∧ area.detection 40 ≠ .lost ∧
    (opened.isHeld 40 = true ∧ (opened.throwOf 40).state = .atRest) ∧
    ((moving.throwOf 40).state = .moving ∧ moving.detection 40 = .normal ∧ (moving.throwOf 40).order = some ⟨.reverse, false⟩) ∧
    ((withThrow 41 ⟨.faulted, none, .stopped, none⟩ area).throwOf 41).state = .faulted ∧ area.isHeld 41 = false) ∧
    ∀ g, 40 ∈ (area.powerGroup g).queue → (area.throwOf 40).state = .queued :=
  ⟨by decide +kernel, fun g h => by rw [no_queues area (by decide +kernel)] at h; cases h⟩
theorem witness_SignalsAreSupervised : area.host.replies.length < 16 ∧ area.su.mode.inService = true ∧ (ask [0, 7, 3, 2]).body = [0, 7, 3, 2] ∧
    area.defn (num2 0 7) = some (.signal false none) ∧ (area.signal 7).proving = .stopProven ∧ (area.signal 7).proving ≠ .proceedProven ∧
    area.permission 7 = .stop ∧ (area.signal 7).withdrawal = .stopped ∧ opened.permission 7 = .proceed ∧
    opened.entrySignal 0 = some 7 ∧ (withSignal 7 ⟨.proceedProven, .running 600000⟩ area).signal 7 = ⟨.proceedProven, .running 600000⟩ ∧
    Time.reached area.time 600000 = true ∧ Time.reached area.time 600001 = false := by decide +kernel
theorem witness_ReportsAreCounted : area.host.replies.length < 16 ∧ area.su.mode.inService = true ∧ (ask [0]).body.length % 4 ≠ 0 ∧
    (ask []).body = [] ∧ 128 < (List.replicate 132 (0 : Byte)).length ∧ (ask [0]).body.length % 2 ≠ 0 ∧
    16 < (List.replicate 18 (0 : Byte)).length ∧
    (ask [0, 12, 1, 2]).body = [((0 : Byte), (12 : Byte), (1 : Byte), (2 : Byte))].flatMap (fun x => [x.1, x.2.1, x.2.2.1, x.2.2.2]) ∧
    (List.replicate 32 ((0 : Byte), (12 : Byte), (1 : Byte), (2 : Byte))).length ≤ 32 ∧
    (ask [0, 1]).body = [((0 : Byte), (1 : Byte))].flatMap (fun x => [x.1, x.2]) ∧ (List.replicate 8 ((0 : Byte), (1 : Byte))).length ≤ 8 := by
  decide +kernel
theorem witness_SupplyReports : area.host.replies.length < 16 ∧ area.su.mode.inService = true ∧ (ask [0, 2]).body = [0, 2] ∧
    (area.cfg.groups.find (0 : Byte).toNat).isSome = true ∧ area.supply 0 = .on ∧ area.supply 0 ≠ .off ∧
    ({ area with field := {} }.supply 0 ≠ .on) ∧ 0 < moving.movingCount 0 := by decide +kernel
theorem witness_PointThrows : area.host.replies.length < 16 ∧ (inMode .safeHold).su.mode = .safeHold ∧ (inMode .startup).su.mode = .startup ∧
    (inMode .restricted).su.mode = .restricted ∧ area.su.mode = .normal ∧ (ask [0]).body.length ≠ 3 ∧ (ask [0, 40, 1]).body = [0, 40, 1] ∧
    399 < num2 1 144 ∧ (2 : Byte) < 3 ∧ num2 1 143 ≤ 399 ∧ area.isPoint (num2 1 143) = false ∧
    area.defn (num2 0 40) = some (.point 13 0 false false none) ∧ area.defn (num2 0 46) = some (.point 16 0 true true (some 12000)) ∧
    area.detection 40 = .reverse ∧ (area.sect 13).held = .clear ∧ (area.throwOf 40).state = .atRest ∧
    (moving.throwOf 40).state = .moving ∧ opened.isHeld 40 = true ∧
    ((withThrow 40 ⟨.faulted, none, .stopped, none⟩ area).throwOf 40).state = .faulted ∧
    area.supply 0 = .on ∧ area.movingCount 0 < area.groupLimit 0 ∧ (area.powerGroup 0).queue = [] ∧
    ({ area with field := { area.field with supplies := table [(0, .off)] } }.supply 0 ≠ .on) := by decide +kernel
/-- The area with points 40 and 41 waiting in the queue of their group. -/
def waiting : State :=
  { area with movement :=
      { throws := table [(40, ⟨.queued, some ⟨.normal, true⟩, .stopped, none⟩), (41, ⟨.queued, some ⟨.reverse, true⟩, .stopped, none⟩)]
        groups := table [(0, ⟨[40, 41], .stopped⟩)] } }
theorem witness_PointsStartAndFail : (waiting.groupLimit 0 ≤ 4 ∧ waiting.cfg.elements.keys.Nodup ∧ (waiting.powerGroup 0).queue.Nodup ∧
    (∀ p ∈ (waiting.powerGroup 0).queue, p ∈ waiting.pointsOf 0 ∧ (waiting.throwOf p).state = .queued) ∧
    (moving.throwOf 40).timer = .running 608000 ∧ Time.reached (608000 : Time) 608000 = true ∧ Time.reached moving.time 608000 = false ∧
    (moving.throwOf 40).state = .moving ∧ (area.throwOf 40).state ≠ .moving ∧
    ((after (.supplyReport (ask [0, 2])) moving).powerGroup 0).lossTimer = .running 621000 ∧ (area.powerGroup 0).lossTimer = .stopped) ∧
    ∀ g, 40 ∉ ({ moving with movement := { moving.movement with groups := {} } }.powerGroup g).queue :=
  ⟨by decide +kernel, fun g h => by rw [no_queues _ rfl] at h; cases h⟩
/-- The area with a fault recorded, and acknowledged. -/
def acked : State := after (.ackFault (ask [0])) (area.raiseNow .linkDown (.link 2))
/-- A full fault list. -/
def fullList : State := { area with su := { area.su with
  faults := table ((List.range 32).map (fun i => (i, ⟨.sectionDisturbed, .element i, 0, 1, .cleared⟩))) } }
theorem witness_FaultsAreRecorded : acked.faultOf .linkDown (.link 2) = some (0, ⟨.linkDown, .link 2, 600000, 1, .acked⟩) ∧
    area.faultOf .linkDown (.link 2) = none ∧ area.su.faults.find 0 = none ∧
    fullList.faultOf .linkDown (.link 2) = none ∧ (∀ i, i < 32 → (fullList.su.faults.find i).isSome = true) ∧
    (FaultKind.hostSilentLong).cls = .critical ∧ (FaultKind.linkDown).cls ≠ .critical ∧ (FaultKind.hostSilent).cls = .major ∧
    (.linkDown, .link 2) ∉ area.su.causes ∧ (.linkDown, .link 2) ∈ acked.su.causes ∧
    area.host.replies.length < 16 ∧ area.su.mode.inService = true ∧ (ask []).body.length ≠ 1 ∧ (ask [32]).body = [32] ∧ (31 : Byte) < 32 ∧
    (acked.su.faults.find 0).map FaultRecord.state = some .acked ∧
    ((area.raiseNow .linkDown (.link 2)).su.faults.find 0).map FaultRecord.state = some .active ∧
    (fullList.su.faults.find 31).map FaultRecord.state = some .cleared := by decide +kernel
theorem witness_ModeFollowsTheHost : { area with su := { area.su with silenceFirst := .running 600000 } }.su.silenceFirst = .running 600000 ∧
    Time.reached area.time 600000 = true ∧ Time.reached area.time 600001 = false ∧ area.su.silenceFirst = .stopped ∧
    area.su.silenceSecond = .stopped ∧ area.su.mode = .normal ∧ area.su.mode ≠ .safeHold := by decide +kernel
theorem witness_AuxiliaryPair : area.host.replies.length < 16 ∧ area.su.mode.inService = true ∧ (aux [0]).body.length ≠ 3 ∧
    (aux [1, 1, 143]).body = [1, 1, 143] ∧ (ask []).authority = .routine ∧ (aux []).authority = .auxiliary ∧ 399 < num2 1 144 ∧
    31 < num2 0 32 ∧ 3 < num2 0 4 ∧ num2 0 1 ≠ 0 ∧ (5 : Byte) < 6 ∧ (1 : Byte) = loByte AuxKind.restoreSection.code ∧
    AuxKind.restoreSection.subjectOk 399 = true ∧ AuxKind.emergencyRelease.subjectOk 31 = true ∧
    AuxKind.releaseGivenFlank.subjectOk 3 = true ∧ AuxKind.resume.subjectOk 0 = true ∧ area.host.preparation = none ∧
    (prepared .resume 0 area).host.preparation = some ⟨.resume, 0, 700000⟩ ∧ Time.reached (700000 : Time) 700000 = true ∧
    Time.reached area.time 700000 = false ∧ 65535 < 65536 := by decide +kernel
/-- The area with section 13 DISTURBED and last reported CLEAR. -/
def disturbed : State := withSection 13 ⟨.disturbed, some .clear, none, none, .disarmed⟩ area
theorem witness_AuxiliaryReleases : disturbed.host.replies.length < 16 ∧ disturbed.su.mode.inService = true ∧ hdr.authority = .auxiliary ∧
    (prepared .restoreSection 13 disturbed).host.preparation = some ⟨.restoreSection, 13, 700000⟩ ∧ area.isSection 7 = false ∧
    area.isSection 13 = true ∧ ¬ ((area.sect 13).held = .disturbed ∧ (area.sect 13).latest = some .clear) ∧
    (disturbed.sect 13).held = .disturbed ∧ (disturbed.sect 13).latest = some .clear ∧ area.cfg.links.find 3 = none ∧
    (area.cfg.links.find 2).isSome = true ∧ (area.link 2).state = .up ∧ ((withLink { state := .proving } area).link 2).state ≠ .up ∧
    (([] : List GivenClaim).map GivenClaim.reference).Nodup ∧ (opened.slot 0).state ≠ .free ∧ (opened.slot 0).state ≠ .timedRelease ∧
    (area.slot 31).state = .free ∧ ((withSlot 0 { state := .timedRelease } area).slot 0).state = .timedRelease ∧
    opened.entrySignal 0 = some 7 ∧ offered.offerOf 0 = some (61, { slot := 0, sentAt := some 600000, answer := .running 610000 }) ∧ (opened.requirement 0 0).isSome = true := by decide +kernel
theorem witness_Resumes : (prepared .resume 0 (inMode .safeHold)).host.preparation = some ⟨.resume, 0, 700000⟩ ∧
    inSafeHold.su.mode = .safeHold ∧ inSafeHold.causeOfClass .critical = true ∧ (inMode .safeHold).causeOfClass .critical = false ∧
    (inMode .safeHold).majorCount ≤ (inMode .safeHold).cfg.params.majorLimit ∧ (inMode .safeHold).su.faults.entries.length < 32 ∧
    (inMode .restricted).su.mode = .restricted ∧ (inMode .restricted).causeOfClass .major = false ∧
    ((inMode .restricted).raiseNow .hostSilent .device).causeOfClass .major = true ∧ (inMode .startup).su.mode = .startup ∧
    area.su.mode = .normal := by decide +kernel
theorem witness_Restarts : (prepared .restart 0 opened).host.replies.length < 16 ∧ (prepared .restart 0 opened).su.mode.inService = true ∧
    hdr.authority = .auxiliary ∧ (prepared .restart 0 opened).host.preparation = some ⟨.restart, 0, 700000⟩ ∧
    (opened.cfg.links.find 2).isSome = true ∧ (opened.link 2).sending = none ∧ (offered.link 2).sending ≠ none ∧
    opened.cfg.links.find 0 = none := by decide +kernel

/-- The area with a link state in place of link 2's. -/
def linkIs (l : LinkState) (s : State) : State := withLink { state := l } s
/-- Route 41 set in slot 0 in a group: PENDING. -/
def grouped : State := later 602000 (after (.setRoute (ask [0, 41, 15])) area)
/-- Route 40 set in slot 0, its signal having shown PROCEED. -/
def proved : State := later 611000 (after (.fieldReport (ask [0, 7, 3, 2])) opened)

theorem witness_SetRouteRefusals : area.host.replies.length < 16 ∧ area.su.mode.inService = true ∧ (ask [0]).body.length ≠ 3 ∧
    (ask [0, 40, 15]).body = [0, 40, 15] ∧ 255 < num2 1 0 ∧ (15 : Byte) < 16 ∧ num2 0 255 ≤ 255 ∧ (inMode .restricted).su.mode ≠ .normal ∧
    area.su.mode = .normal ∧ area.routeDef 255 = none ∧ area.routeDef 40 = some route40 ∧ (opened.slot 0).state ≠ .free ∧
    (opened.slot 0).route = some 40 ∧ (∀ i, i < 32 → (area.slot i).state = .free) ∧
    ((List.range 32).foldl (fun s i => withSlot i { state := .locked } s) area).freeSlot = none ∧
    route40.lockOrder = [12, 13, 40] ∧ (area.putLock 13 (some ⟨5, .path, true, none⟩)).lock 13 = some ⟨5, .path, true, none⟩ ∧
    (∀ x ∈ route40.lockOrder, area.lock x = none) ∧ route40.allPoints = [⟨40, .reverse⟩] ∧
    ((withThrow 40 ⟨.faulted, none, .stopped, none⟩ area).throwOf 40).state = .faulted ∧ (area.throwOf 40).state ≠ .faulted ∧
    area.claimCount 40 = 0 ∧ area.orderedTo 40 .normal = false ∧ area.detection 40 = Position.reverse.detection ∧
    area.defn route52.exit = some (.boundary 2 204 .exit 17) ∧ (area.link 2).state = .up ∧ ((linkIs .suspect area).link 2).state ≠ .up ∧
    (offered.boundary 61).outgoing ≠ none ∧ area.exitRefusal route52 = none ∧ area.freeSlot = some 0 ∧
    (area.defn 62 = some (.boundary 2 205 .both 17) ∧ (area.boundary 62).direction ≠ .outbound) := by decide +kernel
theorem witness_FlankIsTried : area.trial 0 0 [] route40.flank = .ok [(0, .localPoint 44 .normal)] ∧
    area.trial 0 0 [] route52.flank = .ok [(0, .remote 2 118 .normal)] ∧
    (linkIs .down area).trial 0 0 [] (route40.flank ++ route52.flank) = .error 1 := by decide +kernel
theorem witness_SetRouteTakes : area.host.replies.length < 16 ∧ area.su.mode = .normal ∧ (ask [0, 52, 0]).body = [0, 52, 0] ∧
    num2 0 52 ≤ 255 ∧ area.routeDef 52 = some route52 ∧ area.planRoute route52 = .ok ⟨0, [(0, .remote 2 118 .normal)]⟩ ∧
    route52.lockOrder.Nodup ∧ area.isBoundary route52.exit = true ∧ area.planRoute route40 = .ok ⟨0, [(0, .localPoint 44 .normal)]⟩ ∧
    area.isBoundary route40.exit = false ∧ area.planRoute route70 = .ok ⟨0, []⟩ ∧ route70.cls = .entry := by decide +kernel
theorem witness_SlotsCommit : (offered.routeOf 0 = some route52 ∧ (route52.allPoints.map PointReq.point).Nodup ∧
    (toMove.throwOf 40).state = .atRest ∧ toMove.detection 40 ≠ Position.reverse.detection ∧ toMove.isPoint 40 = true ∧
    toMove.su.mode ≠ .safeHold ∧ inSafeHold.su.mode = .safeHold ∧ grouped.host.replies.length < 16 ∧ grouped.su.mode.inService = true ∧
    (ask []).body.length ≠ 1 ∧ (ask [15]).body = [15] ∧ (15 : Byte) < 16 ∧ grouped.su.mode ≠ .safeHold ∧
    (grouped.slot 0).state = .pending ∧ (grouped.slot 0).group = some 15 ∧ (grouped.slot 0).needs = ⟨true, false, false⟩ ∧
    grouped.routeOf 0 ≠ none) ∧
    ∀ g p, p ∈ (offered.powerGroup g).queue → (offered.throwOf p).state = .queued :=
  ⟨by decide +kernel, fun g p h => by rw [no_queues offered (by decide +kernel)] at h; cases h⟩
theorem witness_SlotsAreVacated : opened.routeOf 0 = some route40 ∧ offered.offerOf 0 = some (61, { slot := 0, sentAt := some 600000, answer := .running 610000 }) ∧ route70.cls = .entry ∧
    (entered.boundary route70.entry).entrySlot = some 0 ∧ offered.isBoundary route52.exit = true ∧ opened.su.mode.inService = true ∧
    opened.slot 0 ≠ { lastOutcome := .none } ∧
    (offered.slot 0).pendingTimer = .running 620000 ∧ (offered.slot 0).state = .pending ∧ Time.reached (620000 : Time) 620000 = true ∧
    (opened.slot 0).provingTimer = .running 603000 ∧ (opened.slot 0).state = .opened ∧ Time.reached opened.time 603000 = true ∧
    (passing.slot 0).state = .passing ∧ (approachLocked.slot 0).rel.approachTimer = .running 681000 ∧
    (approachLocked.slot 0).state = .approachLocked ∧
    ((after (.emergencyRelease hdr 0) (prepared .emergencyRelease 0 passing)).slot 0).rel.emergencyTimer = .running 920000 ∧
    (area.slot 0).pendingTimer = .stopped := by decide +kernel
theorem witness_CancelledRoutes : area.host.replies.length < 16 ∧ area.su.mode.inService = true ∧ (ask []).body.length ≠ 1 ∧
    (ask [31]).body = [31] ∧ (31 : Byte) < 32 ∧ (area.slot 31).state = .free ∧ (passing.slot 0).state = .passing ∧
    (approachLocked.slot 0).state = .approachLocked ∧ (offered.slot 0).state = .pending ∧ (opened.slot 0).state = .opened ∧
    opened.routeOf 0 = some route40 ∧ (entered.slot 0).state = .opened ∧ entered.routeOf 0 = some route70 ∧
    (entered.boundary route70.entry).incoming = some ⟨5, 1, true⟩ ∧ (entered.boundary route70.entry).entrySlot = some 0 ∧
    (opened.slot 0).hasBeenOpened = true ∧ (∀ e ∈ route40.approach, (opened.sect e).held = .clear) ∧
    (∃ e ∈ route40.approach, ((after (.fieldReport (ask [0, 11, 1, 2])) opened).sect e).held ≠ .clear) := by decide +kernel
theorem witness_SlotsOpenAndFallBack : opened.routeOf 0 = some route40 ∧ (withSlot 0 { opened.slot 0 with state := .locked } opened).routeOf 0 =
      some route40 ∧
    (withSlot 0 { passing.slot 0 with state := .locked } passing).failing 0 ≠ {} ∧ route40.cls ≠ .entry ∧ route70.cls = .entry ∧
    (after (.setRoute (ask [0, 70, 0])) area).failing 0 = {} ∧ (opened.slot 0).state = .opened ∧ proved.failing 0 = {} ∧
    ({ (withSlot 0 (opened.slot 0) passing).failing 0 with proving := false } ≠ ({} : Waiting)) ∧
    (∃ e ∈ route40.path.drop 1, ((withSection 13 { held := .occupied } opened).sect e).held ≠ .clear) ∧
    ¬ (inSafeHold.su.mode = .normal ∨ inSafeHold.su.mode = .restricted) ∧
    ((area.raiseNow .hostSilent .device).su.causes = [(.hostSilent, .device)]) := by decide +kernel
theorem witness_ApproachTimes : 1 ≤ route40.decel ∧ route70.cls ≠ .main ∧ route52.approach = [] ∧ route40.cls = .main ∧ route40.approach ≠ [] ∧
    route40.approach = [] ++ [10, 11] ∧ route40.approach.length ≤ 3 ∧
    (withSection 10 { held := .clear, occupiedAt := some 100000 } (withSection 11 { held := .occupied, occupiedAt := some 118000 } area)).sect 10 =
      { held := .clear, occupiedAt := some 100000 } ∧ ((118000 : Time) - 100000).toNat = 18000 ∧ (18000 : Nat) ≤ 600000 := by decide +kernel
theorem witness_TrainsPassTheEntry : opened.host.replies.length < 16 ∧ opened.su.mode.inService = true ∧ (ask [0, 12, 1, 2]).body = [0, 12, 1, 2] ∧
    opened.defn (num2 0 12) = some (.sect 450) ∧ (opened.sect 12).latest ≠ some .occupied ∧ (opened.sect 12).held ≠ .occupied ∧
    (opened.sect 12).held ≠ .disturbed ∧ opened.lock 12 = some ⟨0, .path, true, none⟩ ∧ opened.routeOf 0 = some route40 ∧
    route40.path.head? = some 12 ∧ (opened.slot 0).rel.released = 0 ∧ (opened.slot 0).state = .opened ∧
    (approachLocked.slot 0).state = .approachLocked ∧ approachLocked.lock 12 = some ⟨0, .path, true, none⟩ ∧
    ((after (.emergencyRelease hdr 0) (prepared .emergencyRelease 0 opened)).slot 0).state = .timedRelease ∧
    ((after (.emergencyRelease hdr 0) (prepared .emergencyRelease 0 opened)).slot 0).rel.passedAt = none ∧
    (grouped.slot 0).state = .pending ∧ grouped.lock 12 = some ⟨0, .path, false, none⟩ := by decide +kernel
/-- The train of route 40 beyond its first section, which is CLEAR again. -/
def gone : State := withSection 12 { held := .clear, latest := some .clear, mark := .armed true }
  (withSection 13 { held := .occupied, latest := some .occupied, mark := .armed true } passing)
/-- A slot PASSING on its last section, its overlap HELD or absent. -/
def last (o : OverlapState) : State :=
  withSection 13 { held := .clear, latest := some .clear, mark := .armed true } (withSlot 0 { passing.slot 0 with
    route := some (if o = .none then 40 else 41), rel := { overlap := o, released := 1 } } passing)
theorem witness_SectionsAreReleased : gone.routeOf 0 = some route40 ∧ (gone.slot 0).state = .passing ∧ (gone.slot 0).rel.released = 0 ∧
    route40.path[0]? = some 12 ∧ (gone.slot 0).rel.overlap ≠ .held ∧ (gone.sect 12).held = .clear ∧ (gone.sect 12).mark = .armed true ∧
    (gone.sect 13).held ≠ .clear ∧ (last .none).routeOf 0 = some route40 ∧ ((last .none).slot 0).rel.released + 1 = route40.path.length ∧
    ((last .none).slot 0).rel.overlap = .none ∧ (last .held).routeOf 0 = some route41 ∧ ((last .held).slot 0).rel.overlap = .held ∧
    route41.path.getLast? = some 13 ∧ (last .held).isBoundary route41.exit = false ∧ ((last .held).sect 13).mark = .armed true := by decide +kernel

/-- A link record with a number of telegrams waiting. -/
def queued (st : LinkState) (n : Nat) : Link := { state := st, queue := List.replicate n (.dirAsk 0), sending := some (0, .dirAsk 0) }

theorem witness_TelegramsAreSent : ¬ ((linkIs .proving area).link 2).state = .up ∧ (area.link 2).state = .up ∧ (area.link 2).sending = none ∧
    (area.link 2).queue = [] ∧ (queued .up 63).sending ≠ none ∧ (queued .up 63).queue.length < 64 ∧ 64 ≤ (queued .up 64).queue.length ∧
    (withLink (queued .up 63) area).link 2 = queued .up 63 ∧ (area.link 2).sendTimer = .stopped ∧
    ((withLink { state := .proving, sendTimer := .running 600000 } area).link 2).sendTimer = .running 600000 ∧
    Time.reached area.time 600000 = true ∧ Time.reached area.time 600001 = false := by decide +kernel
theorem witness_LinksGoDown : area.host.replies.length < 16 ∧ area.su.mode.inService = true ∧ (ask []).body.length ≠ 1 ∧ (ask [3]).body = [3] ∧
    (3 : Byte) < 4 ∧ (area.link 3).state = .disabled ∧ (area.link 2).state ≠ .disabled ∧ (ask []).authority = .routine ∧
    (aux []).authority = .auxiliary ∧ (area.link 2).losTimer = .stopped ∧
    ((withLink { state := .suspect, losTimer := .running 600000 } area).link 2) = { state := .suspect, losTimer := .running 600000 } ∧
    (2 : Nat) ≠ 3 := by decide +kernel
theorem witness_LinkHealth : (area.link 3).state = .disabled ∧ (area.link 2).state = .up ∧ ((linkIs .proving area).link 2).state = .proving ∧
    ((withLink { state := .suspect, badRun := 1 } area).link 2).badRun + 1 < (area.linkParams 2).outLock ∧
    (area.linkParams 2).outLock ≤ ((withLink { state := .suspect, badRun := 2 } area).link 2).badRun + 1 ∧
    ReceiveError.crc ≠ .hunting ∧ (area.link 2).missWatch = .stopped ∧
    ((withLink { state := .up, missWatch := .running 600000 } area).link 2).missWatch = .running 600000 ∧ area.su.mode.inService = true := by
  decide +kernel
theorem witness_GoodTelegrams : (area.link 2).lastSeq = none ∧ ((withLink { state := .up, lastSeq := some 255 } area).link 2).lastSeq = some 255 ∧
    (0 : Byte) = 255 + 1 ∧ (1 : Byte) ≠ 255 + 1 ∧ (⟨4, [511], [], []⟩ : StateBody).ok = true ∧ (area.link 3).state = .disabled ∧
    ((withLink { state := .proving, cleanRun := 6 } area).link 2).cleanRun + 1 < (area.linkParams 2).inLock ∧
    (area.linkParams 2).inLock ≤ ((withLink { state := .proving, cleanRun := 7 } area).link 2).cleanRun + 1 ∧ area.work = [] ∧
    ((withLink { state := .suspect, goodRun := 0 } area).link 2).goodRun ≠ 1 ∧
    ((withLink { state := .suspect, goodRun := 1 } area).link 2).goodRun = 1 ∧ (area.link 2).queue.length < 64 := by decide +kernel
theorem witness_ProbePatterns : (area.link 2).sending = none ∧ (area.link 2).queue = [] ∧
    ({ generator := 0xACE1 } : Link).generator = probeStart ({ generator := 0xACE1 } : Link).outProbe.toNat ∧
    ({ generator := probeStart 255, outProbe := 255 } : Link).generator =
      probeStart ({ generator := probeStart 255, outProbe := 255 } : Link).outProbe.toNat := by decide +kernel
theorem witness_ProbesProveTheLink : (List.replicate 15 (0 : Byte)).length ≠ 16 ∧ (probePattern 0xACE1).length = 16 ∧
    (area.link 3).state = .disabled ∧ ((withLink { state := .proving, checker := 0xACE1, cleanRun := 7 } area).link 2).checker =
      probeStart ((withLink { state := .proving, checker := 0xACE1, cleanRun := 7 } area).link 2).expProbe.toNat ∧
    (withLink { state := .proving, checker := 0xACE1, cleanRun := 7 } area).link 2 = { state := .proving, checker := 0xACE1, cleanRun := 7 } ∧
    ((withLink { state := .up, freshUp := true } area).link 2).freshUp = true ∧ (area.link 2).freshUp = false ∧
    ((linkIs .suspect area).link 2).state = .suspect := by decide +kernel
theorem witness_OffersAreReceived : (inMode .restricted).su.mode ≠ .normal ∧ area.su.mode = .normal ∧ (area.heardFrom 2 0).su.mode = .normal ∧
    area.defn 61 = some (.boundary 2 204 .exit 17) ∧ area.defn 204 = some (.boundary 2 61 .entry 220) ∧ (entered.boundary 204).incoming ≠ none ∧
    area.boundary 204 = {} ∧ area.roleOf 204 = some .entry ∧ area.roleOf 62 = some .both ∧ (area.boundary 62).direction = .unknown ∧
    (entered.boundary 204).entrySlot = some 0 ∧ (entered.slot 0).state = .opened ∧ (area.link 2).sending = none ∧ (area.link 2).queue = [] ∧
    area.host.replies.length < 16 ∧ area.su.mode.inService = true ∧ (ask []).body.length ≠ 2 ∧ (ask [0, 204]).body = [0, 204] ∧
    399 < num2 1 144 ∧ num2 0 204 ≤ 399 ∧ area.isBoundary 7 = false ∧ area.isBoundary 204 = true ∧ (area.boundary 204).incoming = none ∧
    (entered.boundary 204).incoming = some ⟨5, 1, true⟩ ∧ (after (.offer 2 0 204 5 1) area).boundary 204 = { incoming := some ⟨5, 1, false⟩ } := by
  decide +kernel
theorem witness_OffersAreAnswered : (offered.link 2).state = .up ∧ (area.heardFrom 2 0).offeredOn 2 0 = none ∧
    (offered.heardFrom 2 0).offeredOn 2 0 = some (61, { slot := 0, sentAt := some 600000, answer := .running 610000 }) ∧
    ((after (.accept 2 0 0) offered).heardFrom 2 1).offeredOn 2 0 = some (61, { slot := 0, accepted := true, sentAt := some 600000 }) ∧
    (area.boundary 61).outgoing = none ∧ (offered.boundary 61).outgoing = some { slot := 0, sentAt := some 600000, answer := .running 610000 } ∧
    Time.reached (610000 : Time) 610000 = true ∧ Time.reached offered.time 610000 = false ∧ offered.exitBoundary 0 = some 61 ∧
    offered.lock 16 = some ⟨0, .path, false, none⟩ := by decide +kernel
/-- Route 52 set and its offer accepted, in a state of its slot. -/
def accepted (st : SlotState) : State :=
  withSlot 0 { (after (.accept 2 0 0) offered).slot 0 with state := st, hasBeenOpened := st == .opened } (after (.accept 2 0 0) offered)
theorem witness_OffersEnd : (accepted .pending).su.mode = .normal ∧ ((accepted .pending).link 2).state = .up ∧
    61 ∈ area.boundariesOn 2 ∧ 204 ∈ entered.boundariesOn 2 ∧ 7 ∉ area.boundariesOn 2 ∧ (entered.boundary 204).incoming = some ⟨5, 1, true⟩ ∧
    ((accepted .pending).heardFrom 2 1).offeredOn 2 0 = some (61, { slot := 0, accepted := true, sentAt := some 600000 }) ∧
    ((accepted .opened).heardFrom 2 1).offeredOn 2 0 = some (61, { slot := 0, accepted := true, sentAt := some 600000 }) ∧
    (accepted .opened).routeOf 0 = some route52 ∧ route52.approach = [] ∧ ((accepted .opened).slot 0).hasBeenOpened = true ∧
    ((accepted .locked).slot 0).hasBeenOpened = false ∧ ((accepted .approachLocked).slot 0).state = .approachLocked ∧
    ((accepted .passing).slot 0).state = .passing ∧
    (after (.cancelRoute (ask [0])) entered).boundary 204 = { entrySlot := some 0, awaited := some 5 } ∧
    ((after (.cancelRoute (ask [0])) entered).slot 0).state = .awaitReleased ∧ (accepted .passing).exitBoundary 0 = some 61 ∧
    area.linkOf 61 = some 2 ∧ area.linkOf 7 ≠ some 2 ∧
    ((withSlot 0 { entered.slot 0 with state := .passing } entered).boundary 204).entrySlot = some 0 ∧
    ((withSlot 0 { entered.slot 0 with state := .passing } entered).slot 0).state = .passing := by decide +kernel
/-- The BOTH element with a direction. -/
def directed (d : Direction) : State := withBoundary 62 { direction := d, dirTimer := .running 600000 } area
theorem witness_DirectionIsAgreed : area.host.replies.length < 16 ∧ area.su.mode.inService = true ∧ area.su.mode ≠ .safeHold ∧
    (ask []).body.length ≠ 2 ∧ (ask [0, 62]).body = [0, 62] ∧ 399 < num2 1 144 ∧ num2 0 62 ≤ 399 ∧ area.roleOf 61 ≠ some .both ∧
    area.roleOf 62 = some .both ∧ area.linkOf 62 = some 2 ∧ (area.boundary 62).direction ≠ .inbound ∧
    ((directed .inbound).boundary 62).direction = .inbound ∧
    ((withBoundary 62 { direction := .inbound, awaited := some 0 } area).boundary 62).awaited ≠ none ∧
    ((linkIs .suspect (directed .inbound)).link 2).state ≠ .up ∧ ((directed .inbound).link 2).state = .up ∧
    (directed .outbound).boundary 62 = { direction := .outbound, dirTimer := .running 600000 } ∧
    (directed .outbound).lock ((directed .outbound).adjacentOf 62) = none ∧
    ((directed .outbound).sect ((directed .outbound).adjacentOf 62)).held = .clear ∧ area.linkOf 7 ≠ some 2 ∧
    ((directed .asking).boundary 62).direction = .asking ∧ Time.reached area.time 600000 = true ∧ Time.reached area.time 600001 = false ∧
    ((directed .asking).heardFrom 2 0).boundary 62 = (directed .asking).boundary 62 := by decide +kernel
theorem witness_FlankIsGiven : (area.link 2).state = .up ∧ (inSafeHold.heardFrom 2 0).su.mode = .safeHold ∧ (area.heardFrom 2 0).su.mode ≠ .safeHold ∧
    (80 : Nat) ∉ (area.link 2).given.map GivenClaim.reference ∧ (3 : Nat) < 4 ∧
    (1, Required.normal) ∈ [(1, Required.normal), (2, .reverse), (3, .stop)] ∧ area.isPoint 41 = true ∧
    area.pointAvailable 41 .normal false = true ∧ area.isSignal 20 = true ∧ area.signalAvailable 20 false = true ∧ area.isPoint 20 = false ∧
    (area.link 2).given.length < 16 ∧ area.inRequiredState 41 .normal = true ∧ (area.link 2).sending = none ∧ (area.link 2).queue = [] ∧
    ((after (.flankAsk 2 0 80 40 1) area).link 2).given.find? (fun x => x.reference == 80) = some ⟨80, 40, .normal, false, false⟩ := by decide +kernel
theorem witness_AsksAreAnswered : (offered.link 2).state = .up ∧ (area.heardFrom 2 0).requirement 0 0 = none ∧
    (offered.heardFrom 2 0).requirement 0 0 = some { state := .asked, candidate := some 0, answer := .running 610000 } ∧
    (offered.heardFrom 2 0).askLink 0 0 = some 2 ∧
    ((after (.flankGiven 2 0 0) offered).requirement 0 0).map Requirement.state = some .held ∧
    (after (.flankGiven 2 0 0) offered).askLink 0 0 = some 2 ∧ Time.reached (610000 : Time) 610000 = true ∧
    Time.reached offered.time 610000 = false ∧ (offered.slot 0).state = .pending ∧
    ((withSlot 0 { offered.slot 0 with state := .locked } offered).slot 0).state ≠ .pending ∧
    (withSlot 0 { offered.slot 0 with state := .locked } offered).askLink 0 0 = some 2 := by decide +kernel
theorem witness_StateIsReconciled : (area.link 2).state = .up ∧ (⟨4, [], [], [⟨62, 2, false, false, false⟩]⟩ : StateBody).ok = true ∧
    (area.boundariesOn 2).Nodup ∧ 62 ∈ area.boundariesOn 2 ∧ 204 ∈ area.boundariesOn 2 ∧ 7 ∉ area.boundariesOn 2 ∧ area.roleOf 62 = some .both ∧
    (area.heardFrom 2 0).roleOf 62 = some .both ∧ ((area.heardFrom 2 0).linkParams 2).senior = true ∧
    ((area.heardFrom 2 0).boundary 62).direction = .unknown ∧ ((directed .outbound).boundary 62).direction = .outbound ∧
    (after (.flankGiven 2 0 0) offered).askLink 0 0 = some 2 ∧ (0 : Nat) ∉ ([] : List Nat) ∧
    ((accepted .opened).boundary 61).outgoing = some { slot := 0, accepted := true, sentAt := some 600000 } ∧
    (accepted .pending).exitBoundary 0 = some 61 ∧ ((accepted .pending).slot 0).state = .pending := by decide +kernel

/-! ### States and operands for the further clauses of the statements -/

/-- The area with a receive side in place of the host line's. -/
def onHostLine (x : LineInput) : State := { area with inputs := { area.inputs with host := x } }
/-- The area with a receive side in place of a port's. -/
def onPortLine (l : Nat) (x : LineInput) : State := area.putPortInput l x

/-- IdleTakesWhatIsDue: with nothing due, nothing arrived, or something arrived on either kind of line. -/
theorem witness_LinesBring : (onHostLine ⟨.hunting, [.byteError], 0⟩).pending = [] ∧
    (onHostLine ⟨.hunting, [.byteError], 0⟩).inputs.host.arrived ≠ [] ∧
    (onHostLine ⟨.hunting, [.byteError], 0⟩).handOn ++ (onHostLine ⟨.hunting, [.byteError], 0⟩).dueTimers = [] ∧
    area.inputs.host.arrived = [] ∧ (∀ l, l < 4 → (area.portInput l).arrived = []) ∧
    ((onPortLine 3 ⟨.hunting, [.byteError], 0⟩).portInput 3).arrived ≠ [] := by decide +kernel

/-- FramesAreRead: a receiver in time and late by its last millisecond, at its second byte, within a frame and at the last byte of the
longest frame. -/
theorem witness_HostReceiver :
    (onHostLine ⟨.gathering [0x5A], [.byte 5], 599999⟩).inputs.host.arrived = .byte 5 :: [] ∧
    (area.time - (599999 : Time)).toNat = 1 ∧ (area.time - (599998 : Time)).toNat = 2 ∧ (1 : Byte) ≤ 1 ∧ (5 : Byte) ≤ 5 ∧
    ([0x5A, 0] : List Byte) = 0x5A :: 0 :: [] ∧ ([0x5A, 6] : List Byte) = 0x5A :: 6 :: [] ∧ 6 ≤ (6 : Byte) ∧
    ([] : List Byte).length + 3 ≠ (6 : Byte).toNat ∧ ([1, 1, 0] : List Byte).length + 3 = (6 : Byte).toNat ∧
    (List.replicate 253 (0 : Byte)).length + 3 = 256 := by decide +kernel

/-- FramesAreRead, TelegramsDecode: what a receiver takes from its line, step by step. -/
theorem test_receivers_take :
    ((onHostLine ⟨.hunting, [.byte 0x5A, .byte 7], 0⟩).takeHostInput).inputs.host = ⟨.gathering [0x5A], [.byte 7], 600000⟩ ∧
    (onHostLine ⟨.hunting, [.byteError], 0⟩).takeHostInput.pending = [.badFrame .hunting] ∧
    (onHostLine ⟨.gathering [0x5A], [.byte 7], 599998⟩).takeHostInput.pending = [.badFrame .length] ∧
    ((onHostLine ⟨.gathering [0x5A], [.byte 7], 599998⟩).takeHostInput).inputs.host = ⟨.hunting, [.byte 7], 599998⟩ ∧
    (onHostLine ⟨.gathering [0x5A], [.byte 5], 599999⟩).takeHostInput.pending = [.badFrame .length] ∧
    ((onPortLine 2 ⟨.gathering [0xC3], [.byte 5], 600000⟩).takePortInput 2).pending = [.badTelegram 2 .length] ∧
    ((onPortLine 2 ⟨.gathering [0xC3], [.byte 6], 599998⟩).takePortInput 2).portInput 2 = ⟨.gathering [0xC3, 6], [], 600000⟩ ∧
    ((onPortLine 2 ⟨.gathering [0xC3], [.byte 6], 599997⟩).takePortInput 2).portInput 2 = ⟨.hunting, [.byte 6], 599997⟩ ∧
    ((onPortLine 3 ⟨.gathering [0xC3], [.byte 6], 600000⟩).takePortInput 3).portInput 3 = ⟨.hunting, [], 600000⟩ := by decide +kernel

/-- TelegramsDecode: the port's receiver, and runs of bytes that fail each check. -/
theorem witness_PortReceiver : ((onPortLine 2 ⟨.gathering [0xC3], [.byteError], 599997⟩).portInput 2).arrived = .byteError :: [] ∧
    (area.time - (599998 : Time)).toNat = 2 ∧ (area.time - (599997 : Time)).toNat = 3 ∧ (area.link 3).state = .disabled ∧
    (area.link 2).state ≠ .disabled ∧ (0xC2 : Byte) ≠ 0xC3 ∧ (5 : Byte) < 6 ∧ ([] : List Byte).length + 2 ≠ (6 : Byte).toNat ∧
    ([] : List Byte).length + 6 = (6 : Byte).toNat ∧ ([0, 0] : List Byte) ≠ bytes2 (crc16 [6, 3, 0]).toNat ∧
    readStateBody [] = none ∧ ([] : List Byte).length ≠ 17 ∧
    ([1, 1, 0] : List Byte).length + 3 = (6 : Byte).toNat ∧ ([] : List Byte).length + 3 ≠ (6 : Byte).toNat := by decide +kernel

/-- PingAndQueryAnswer: an element of each kind. ConfigurationIsEmptied: tables that name no id twice. -/
theorem witness_ReportBodies : area.defn 12 = some (.sect 450) ∧ area.defn 40 = some (.point 13 0 false false none) ∧
    area.defn 7 = some (.signal false none) ∧ area.defn 61 = some (.boundary 2 204 .exit 17) ∧
    area.cfg.elements.keys.Nodup ∧ area.cfg.routes.keys.Nodup := by decide +kernel

/-- RouteRecordsAreSound: the fields of route 40's body, and of one with an overlap that has no sections. -/
def rawRoute : RawRoute :=
  ⟨40, 1, 7, 9, [12, 13], [2 * 16384 + 40], 0, [], [], 0, [(2 * 16384 + 40, [(1, 16384 + 44), (2, 20)])], [10, 11], 2500, 50, 6000, 600⟩
theorem witness_RawRoute_fits : rawRoute.fits where
  bytes := by decide
  words := by decide
  flank := by decide
  overlap := by decide
theorem witness_RouteBodies : 21 ≤ rawRoute.bytes.length ∧ rawRoute.bytes.length ≤ 241 ∧ rawRoute.failures = [] ∧
    ({ rawRoute with flank := [(2 * 16384 + 41, [(1, 44), (2, 20)])] } : RawRoute).failures = [⟨.flank, 0, 0⟩, ⟨.flank, 0, 0⟩] ∧
    ({ rawRoute with flank := [(2 * 16384 + 40, [(1, 16384 + 44), (1, 16384 + 44)])] } : RawRoute).failures = [⟨.flank, 0, 1⟩] ∧
    (List.replicate 20 (0 : Byte)).length < 21 ∧ 241 < (List.replicate 242 (0 : Byte)).length := by decide +kernel

/-- SectionReports: a section whose mark is armed, locked as path, and one that no slot locks. -/
theorem witness_PassageMarks : (withSection 13 { held := .clear, latest := some .clear, mark := .armed false } passing).sect 13 =
      { held := .clear, latest := some .clear, mark := .armed false } ∧ (passing.lock 13).map Lock.kind = some .path ∧
    area.lock 12 = none ∧ (gone.sect 13).mark ≠ .disarmed := by decide +kernel

/-- Route 40 set, its flank point out of position. -/
def astray : State := withPoint 44 .reverse opened
/-- Resumes: a point with a FIRM claim, and one with a claim given, out of position and at rest. -/
theorem witness_SecuredPoints : astray.requirement 0 0 = some ⟨.held, some 0, true, true, false, .stopped⟩ ∧ astray.chosen 0 0 = some (.localPoint 44 .normal) ∧ 44 ∈ astray.points ∧
    astray.claimPosition 44 = some .normal ∧ astray.lockPosition 44 = none ∧ astray.detection 44 ≠ Position.normal.detection ∧
    astray.orderedTo 44 .normal = false ∧ (astray.throwOf 44).state = .atRest ∧
    ((withLink { state := .proving, given := [⟨37, 46, .normal, true, false⟩] } area).link 2).given = [⟨37, 46, .normal, true, false⟩] := by
  decide +kernel

/-- AuxiliaryPair: a preparation of each kind with a state in which its command is carried out. -/
theorem witness_ConfirmedCommands : (prepared .restoreSection 13 disturbed).host.preparation = some ⟨.restoreSection, 13, 700000⟩ ∧
    (aux [1, 0, 13]).body = [loByte AuxKind.restoreSection.code, 0, 13] ∧ disturbed.isSection 13 = true ∧
    (aux [2, 0, 0]).body = [loByte AuxKind.emergencyRelease.code, 0, 0] ∧ (opened.slot 0).state ≠ .free ∧
    (aux [3, 0, 2]).body = [loByte AuxKind.releaseGivenFlank.code, 0, 2] ∧ (area.cfg.links.find 2).isSome = true ∧
    ((withLink { state := .proving } area).link 2).state = .proving ∧ (inMode .restricted).su.mode = .restricted ∧
    (inMode .restricted).su.causes = [] ∧ (aux [4, 0, 0]).body = [loByte AuxKind.resume.code, 0, 0] ∧
    (aux [5, 0, 0]).body = [loByte AuxKind.restart.code, 0, 0] := by decide +kernel

/-- The offered route with its link's line idle. -/
def quietOffer : State := linkIs .up offered
/-- SlotsAreVacated, SectionsAreReleased: an ASKED requirement has a remote candidate. -/
theorem witness_asksAbroad : quietOffer.asksAbroad 0 := by
  have h : (quietOffer.slot 0).requirements.length = 1 := by decide +kernel
  have c : quietOffer.chosen 0 0 = some (.remote 2 118 .normal) := by decide +kernel
  intro j q hq _
  have hj : j < (quietOffer.slot 0).requirements.length := (List.getElem?_eq_some_iff.mp hq).1
  obtain rfl : j = 0 := by omega
  exact ⟨2, 118, .normal, c⟩
theorem witness_ReleasesAreSent : (quietOffer.link 2).state = .up ∧ (quietOffer.link 2).sending = none ∧ (quietOffer.link 2).queue = [] ∧
    quietOffer.releases 0 2 [0] = [.flankRelease 0] ∧ quietOffer.linkOf 61 = some 2 ∧ quietOffer.routeOf 0 = some route52 ∧
    quietOffer.offerOf 0 = some (61, { slot := 0, sentAt := some 600000, answer := .running 610000 }) ∧
    opened.holdsLocally 0 0 44 = true := by decide +kernel

/-- SectionsAreReleased: the last section with the overlap HELD and its mark not yet set, the flank of its points, and the exit boundary. -/
theorem witness_LastSections : (withSection 13 { held := .occupied, mark := .armed false } (last .held)).sect 13 =
      { held := .occupied, mark := .armed false } ∧
    route40.flank[0]?.map FlankReq.guarded = some 40 ∧ (last .none).containing 40 = 13 ∧ route40.points.any (fun x => x.point == 40) = true ∧
    (withBoundary 61 { (accepted .passing).boundary 61 with occupiedBeyond := true } (accepted .passing)).routeOf 0 = some route52 ∧
    ((withBoundary 61 { (accepted .passing).boundary 61 with occupiedBeyond := true } (accepted .passing)).boundary 61).occupiedBeyond = true ∧
    ((withBoundary 61 { (accepted .passing).boundary 61 with occupiedBeyond := true } (accepted .passing)).boundary 61).outgoing =
      some { slot := 0, accepted := true, sentAt := some 600000 } ∧ route52.path[1]? = some 17 ∧ area.linkOf 61 = some 2 := by decide +kernel

/-- A slot with no flank requirement has asked on no link. -/
theorem no_asks (s : State) (i l : Nat) (h : (s.slot i).requirements = []) (j : Nat) : s.askLink i j ≠ some l := by
  simp [State.askLink, State.chosen, State.requirement, h]
/-- Route 52 as accepted, without its flank requirement, its link's line idle. -/
def alone (st : SlotState) : State := linkIs .up (withSlot 0 { (accepted st).slot 0 with requirements := [] } (accepted st))
/-- OffersEnd, SectionsAreReleased: what is answered at once on an idle line. -/
theorem witness_OffersAreAnsweredAtOnce : (((alone .pending).heardFrom 2 1).slot 0).requirements = [] ∧ (alone .pending).su.mode = .normal ∧
    ((alone .pending).heardFrom 2 1).offeredOn 2 0 = some (61, { slot := 0, accepted := true, sentAt := some 600000 }) ∧
    (((alone .pending).heardFrom 2 1).link 2).sending = none ∧ (((alone .pending).heardFrom 2 1).link 2).queue = [] ∧
    (((alone .pending).heardFrom 2 1).slot 0).state = .pending ∧ ((alone .pending).heardFrom 2 1).exitBoundary 0 = some 61 ∧
    (((alone .locked).heardFrom 2 1).slot 0).hasBeenOpened = false ∧ (((alone .locked).heardFrom 2 1).slot 0).state = .locked := by
  decide +kernel

/-- GoodTelegrams: a telegram of another kind, in sequence and after a gap, and a link on which a STATE waits behind a telegram. -/
theorem witness_OtherTelegrams : ((withLink { state := .proving, cleanRun := 6, lastSeq := some 255 } area).link 2).lastSeq = some 255 ∧
    ((withLink { state := .proving, cleanRun := 6, lastSeq := some 255 } area).link 2).cleanRun < (area.linkParams 2).inLock ∧
    (Telegram.dirAsk 0 ≠ .state ⟨4, [], [], []⟩) ∧ (queued .up 63).sending ≠ none ∧ (queued .up 63).queue.length < 64 ∧
    ((withLink { state := .suspect, goodRun := 1 } area).link 2).state = .suspect := by decide +kernel

/-- OffersAreReceived: a part that stores no ENTRY route, and one that does. OffersAreAnswered: the slot of an offer is PENDING. -/
theorem witness_EntryRoutes : (∀ x ∈ ({ area with cfg := { config with routes := table [(40, route40)] } }.heardFrom 2 0).cfg.routes.entries,
      x.2.cls ≠ .entry) ∧
    (∃ x ∈ (area.heardFrom 2 0).cfg.routes.entries, x.2.cls = .entry) ∧ ((offered.heardFrom 2 0).slot 0).state = .pending ∧
    (offered.heardFrom 2 0).exitBoundary 0 = some 61 := by decide +kernel

/-- FlankIsGiven: the reference of a given claim comes again, for its element and for another, and a point must be moved. -/
theorem witness_RepeatedAsks : let s := after (.flankAsk 2 0 80 40 1) area
    (s.heardFrom 2 1).su.mode ≠ .safeHold ∧
    ((s.heardFrom 2 1).link 2).given.find? (fun x => x.reference == 80) = some ⟨80, 40, .normal, false, false⟩ ∧
    (1, Required.normal) ∈ [(1, Required.normal), (2, .reverse), (3, .stop)] ∧ (41 : Nat) ≠ 40 ∧
    (area.heardFrom 2 0).inRequiredState 40 .normal = false ∧ (area.heardFrom 2 0).orderedTo 40 .normal = false ∧
    ((area.heardFrom 2 0).throwOf 40).state = .atRest ∧ area.isPoint 40 = true ∧ area.pointAvailable 40 .normal false = true := by
  decide +kernel

/-- AsksAreAnswered: a search that finds a candidate from the first on, and one that finds none after the last. -/
theorem witness_Searches : offered.requirement 0 0 = some { state := .asked, candidate := some 0, answer := .running 610000 } ∧
    offered.askLink 0 0 = some 2 ∧ (offered.candidates 0 0)[0]? = some (.remote 2 118 .normal) ∧ (offered.candidates 0 0).length = 1 ∧
    (offered.link 2).state = .up ∧ offered.askCount 2 < 16 ∧ (offered.slot 0).state ≠ .timedRelease ∧ (offered.link 2).queue.length < 64 := by
  decide +kernel

/-- StateIsReconciled: the neighbour shows its side occupied beyond for a PASSING slot, and one whose acceptance it still shows. -/
theorem witness_PassingIsShown : (⟨4, [], [], [⟨61, 3, false, true, true⟩]⟩ : StateBody).ok = true ∧
    ((accepted .passing).slot 0).state = .passing ∧ (accepted .passing).exitBoundary 0 = some 61 ∧ 61 ∈ (accepted .passing).boundariesOn 2 ∧
    ((accepted .passing).boundary 61).outgoing = some { slot := 0, accepted := true, sentAt := some 600000 } ∧
    (area.heardFrom 2 0).passesOn 2 := by
  refine ⟨by decide +kernel, by decide +kernel, by decide +kernel, by decide +kernel, by decide +kernel, ?_⟩
  unfold State.passesOn; decide +kernel

/-- SupplyReports: points wait in a queue while the supply is OFF. -/
theorem witness_PointsWait : let s : State := { waiting with field := { area.field with supplies := table [(0, .off)] } }
    s.supply 0 = .off ∧ s.groupLimit 0 ≤ 4 ∧ s.cfg.elements.keys.Nodup ∧ (s.powerGroup 0).queue.Nodup ∧
    (∀ p ∈ (s.powerGroup 0).queue, p ∈ s.pointsOf 0 ∧ (s.throwOf p).state = .queued) ∧
    min (s.powerGroup 0).queue.length (s.groupLimit 0 - s.movingCount 0) = 2 := by decide +kernel

/-- PointReports: a QUEUED point that does not reach its target, in a report that leaves the part out of SAFE_HOLD. -/
theorem witness_QueuedPoints : ((waiting.throwOf 40).state = .queued ∧ (waiting.throwOf 40).order = some ⟨.normal, true⟩ ∧
    waiting.detection 40 = .reverse ∧ waiting.isHeld 40 = false ∧
    (after (.fieldReport (ask [0, 40, 2, 3])) waiting).su.mode = .restricted) ∧
    ∀ g, 40 ∈ (waiting.powerGroup g).queue → (waiting.throwOf 40).state = .queued :=
  ⟨by decide +kernel, fun _ _ => by decide +kernel⟩

/-- Resumes: a MOVING point, and one that lies where its claim wants it, with no point waiting. -/
theorem witness_PointsThatStay : ((moving.throwOf 40).state ≠ .atRest ∧ opened.claimPosition 44 = some .normal ∧ opened.lockPosition 44 = none ∧
    opened.detection 44 = Position.normal.detection) ∧ ∀ g, (opened.powerGroup g).queue = [] :=
  ⟨by decide +kernel, no_queues opened (by decide +kernel)⟩

/-- TrainsPassTheEntry: the occupied first section of a PASSING slot is reported DISTURBED. -/
theorem witness_PassingEntry : (passing.slot 0).state = .passing ∧ (passing.slot 0).rel.released = 0 ∧ (passing.slot 0).rel.overlap ≠ .held ∧
    (passing.sect 12).latest = some .occupied ∧ (passing.sect 12).held = .occupied ∧ passing.lock 12 = some ⟨0, .path, true, none⟩ ∧
    passing.routeOf 0 = some route40 := by decide +kernel

/-- SlotsCommit: a point held as flank, out of position and at rest. -/
theorem witness_FlankPoints : (astray.su.mode ≠ .safeHold ∧ astray.routeOf 0 = some route40 ∧ astray.isPoint 44 = true ∧
    44 ∉ route40.allPoints.map PointReq.point ∧ astray.requirement 0 0 = some ⟨.held, some 0, true, true, false, .stopped⟩) ∧
    ∀ x pos', astray.chosen 0 x = some (.localPoint 44 pos') → pos' = .normal := by
  refine ⟨by decide +kernel, fun x pos' h => ?_⟩
  cases x with
  | zero =>
    have k : astray.chosen 0 0 = some (.localPoint 44 .normal) := by decide +kernel
    rw [k] at h; cases h; rfl
  | succ x =>
    have k : (astray.slot 0).requirements = [⟨.held, some 0, true, true, false, .stopped⟩] := by decide +kernel
    simp [State.chosen, State.requirement, k] at h

/-! A state in service that meets the laws of TablesStayWhole and ResetMeetsTheInvariants: the area with no route stored. -/

/-- The area with no route stored. -/
def served : State := { area with cfg := { config with routes := {} } }
theorem served_slot (i : Nat) : served.slot i = {} := by
  rw [State.slot, Table.find_of_empty (by decide +kernel)]; rfl
theorem served_throwOf (p : Nat) : served.throwOf p = {} := by
  rw [State.throwOf, Table.find_of_empty (by decide +kernel)]; rfl
theorem served_claim (e : Nat) : served.claim e = none := Table.find_of_empty (by decide +kernel) e
theorem served_lock (e : Nat) : served.lock e = none := Table.find_of_empty (by decide +kernel) e
theorem served_requirement (i j : Nat) : served.requirement i j = none := by rw [State.requirement, served_slot]; rfl
theorem served_link (l : Nat) : served.link l = {} ∨ l = 2 ∧ served.link l = { state := .up } := by
  rw [State.link]
  cases h : served.links.find l with
  | none => exact .inl rfl
  | some k =>
    have hm := Table.mem_of_find h
    have : served.links.entries = [(2, { state := .up })] := by decide +kernel
    simp only [this, List.mem_singleton, Prod.mk.injEq] at hm
    exact .inr ⟨hm.1, by rw [hm.2]; rfl⟩
theorem witness_configured : served.configured where
  elements := by decide +kernel
  routes := ⟨by decide +kernel, fun r d h => by rw [State.routeDef, Table.find_of_empty (by decide +kernel)] at h; cases h⟩
  links := by decide +kernel
  groups := ⟨by decide +kernel, fun g n h => by
    have hm := Table.mem_of_find h
    have : served.cfg.groups.entries = [(0, 2)] := by decide +kernel
    simp only [this, List.mem_singleton, Prod.mk.injEq] at hm
    omega⟩
  references := by decide +kernel
  ports := fun l h => by
    rcases served_link l with hl | ⟨rfl, -⟩
    · rw [hl]; exact ⟨rfl, rfl, rfl, rfl, rfl⟩
    · exact absurd h (by decide +kernel)
  empty := by decide +kernel
theorem witness_recordsSound : served.recordsSound where
  elements := by
    have h : served.cfg.elements.entries = [(7, .signal false none), (9, .signal false none), (10, .sect 450), (11, .sect 450),
      (12, .sect 450), (13, .sect 450), (15, .sect 450), (16, .sect 450), (17, .sect 450), (20, .signal false none),
      (40, .point 13 0 false false none), (41, .point 15 0 false false none), (44, .point 11 0 false false none),
      (46, .point 16 0 true true (some 12000)), (61, .boundary 2 204 .exit 17), (62, .boundary 2 205 .both 17),
      (204, .boundary 2 61 .entry 220), (220, .sect 450), (221, .sect 450)] := by decide +kernel
    rw [h]; simp [ElementDef.sound, limitSound]
  points := by decide +kernel
  signals := by decide +kernel
  boundaries := by decide +kernel
  onLink := fun l => by
    refine (List.Sublist.length_le (List.monotone_filter_right _ ?_)).trans
      (show (served.cfg.elements.entries.filter (fun x => match x.2 with
        | .boundary .. => true
        | _ => false)).length ≤ 8 by decide +kernel)
    rintro ⟨e, d⟩; cases d <;> simp
  links := by
    have h : served.cfg.links.entries = [(2, ⟨250, 1000, 8, 3, 10000, true⟩)] := by decide +kernel
    rw [h]; simp [LinkParams.sound]
theorem witness_locksLawful : served.locksLawful where
  used := fun i h => absurd (by rw [served_slot]) h
  free := fun i _ => by rw [served_slot]; exact ⟨rfl, rfl⟩
  held := fun e l h => by rw [served_lock] at h; cases h
  entries := fun i _ _ _ h => absurd (by rw [served_slot]) h
theorem witness_blocksLawful : served.permissionsLawful ∧ served.offersLawful ∧ served.movesLawful ∧ served.slotsSettled := by
  refine ⟨fun g h => ?_, fun e o h => ?_, fun g => ?_, fun i => ?_⟩
  · rw [State.permission, Table.find_of_empty (by decide +kernel)] at h; cases h
  · rw [State.boundary, Table.find_of_empty (by decide +kernel)] at h; cases h
  · have hq : (served.powerGroup g).queue = [] := no_queues served (by decide +kernel) g
    have hm : served.movingCount g = 0 := by simp [State.movingCount, served_throwOf]
    simp [hq, hm, served_throwOf]
  · rw [served_slot]; simp
theorem witness_claimsLawful : served.claimsLawful where
  counts := fun e => by
    have hr : served.allRequirements = [] := by decide +kernel
    have hg : ∀ l ∈ linkIds, (served.link l).given = [] := by decide +kernel
    have : (served.givenHolders e) = [] := by
      simp only [State.givenHolders, List.flatMap_eq_nil_iff]
      intro l hl; rw [hg l hl]; rfl
    simp [State.claimCount, served_claim, State.localHolders, hr, this]
  kinds := fun e c h => by rw [served_claim] at h; cases h
  points := fun i j _ _ q h => by rw [served_requirement] at h; cases h
  given := fun l c h => by rcases served_link l with hl | ⟨-, hl⟩ <;> rw [hl] at h <;> cases h
  references := fun l => by rcases served_link l with hl | ⟨-, hl⟩ <;> rw [hl] <;> exact List.nodup_nil
  asked := fun i j q h => by rw [served_requirement] at h; cases h
theorem witness_ordersLawful : served.ordersLawful where
  agree := fun p pos q h => by rw [State.lockPosition, served_lock] at h; cases h
  orders := fun p pos _ h => by rw [State.orderedTo, served_throwOf] at h; cases h
  pendings := fun i _ _ h => by rw [served_slot] at h; cases h
theorem witness_servedSteps : ∃ t, step served = .next t := ⟨_, rfl⟩

end Sys2Proof.Tests
end

