-- ==== Sys2Proof/Proofs/ElementRecords.lean ====
section
/-! PROOFS. ELEMENT_DEF (R1): what the check of each field says, one law per failure; what the reader of the whole body makes of them;
how the command ends on a body that fails and on one that passes; and the statement about all bodies. -/

namespace Sys2Proof.Machine

/-! ### The own limit -/

/-- R1: an own limit does not fit its record: outside its range with the individual flag set, or not 0 without it. -/
def LimitFails (individual : Bool) (n least greatest : Nat) : Prop :=
  individual = true ∧ (n < least ∨ greatest < n) ∨ individual = false ∧ n ≠ 0

theorem ownLimitOk_iff {individual : Bool} {n least greatest : Nat} :
    ownLimitOk individual n least greatest = true ↔ ¬ LimitFails individual n least greatest := by
  cases individual <;> simp [ownLimitOk, LimitFails]

/-! ### The fields of each kind, after the id and the kind -/

theorem elementFields_kind {k : Nat} (h : k = 0 ∨ 4 < k) (rest : List Byte) : elementFields k rest = .error ⟨.kind, 0, 0⟩ := by
  unfold elementFields
  split
  case h_5 => rfl
  all_goals omega

/-- The bytes that follow the id and the kind: 2 for a section, 6 for a point, 3 for a signal, 6 for a boundary element. -/
theorem elementFields_length {k : Nat} {rest : List Byte}
    (h : k = 1 ∧ rest.length ≠ 2 ∨ k = 2 ∧ rest.length ≠ 6 ∨ k = 3 ∧ rest.length ≠ 3 ∨ k = 4 ∧ rest.length ≠ 6) :
    elementFields k rest = .error ⟨.length, 0, 0⟩ := by
  unfold elementFields
  split
  case h_5 => simp_all
  all_goals
    split
    · simp at h
    · rfl

section Fields
variable {x y g f l r c d : Byte}

theorem elementFields_section (h : 1 ≤ num2 x y ∧ num2 x y ≤ 4095) : elementFields 1 [x, y] = .ok (.sect (num2 x y)) := if_pos h

theorem elementFields_sectionLength (h : ¬ (1 ≤ num2 x y ∧ num2 x y ≤ 4095)) :
    elementFields 1 [x, y] = .error ⟨.sectionLength, 0, 0⟩ := if_neg h

theorem elementFields_powerGroup (h : 7 < g) : elementFields 2 [x, y, g, f, c, d] = .error ⟨.powerGroup, 0, 0⟩ := if_pos h

theorem elementFields_pointLimit (hg : ¬ 7 < g) (h : LimitFails (f.getLsbD 1) (num2 c d) 1000 30000) :
    elementFields 2 [x, y, g, f, c, d] = .error ⟨.ownLimit, 0, 0⟩ :=
  (if_neg hg).trans (if_neg (ownLimitOk_iff.not_left.mpr h))

theorem elementFields_point (hg : ¬ 7 < g) (h : ¬ LimitFails (f.getLsbD 1) (num2 c d) 1000 30000) :
    elementFields 2 [x, y, g, f, c, d] =
      .ok (.point (num2 x y) g.toNat (f.getLsbD 0) (f.getLsbD 1) (ownLimit (num2 c d))) :=
  (if_neg hg).trans (if_pos (ownLimitOk_iff.mpr h))

theorem elementFields_signalLimit (h : LimitFails (f.getLsbD 1) (num2 c d) 500 10000) :
    elementFields 3 [f, c, d] = .error ⟨.ownLimit, 0, 0⟩ := if_neg (ownLimitOk_iff.not_left.mpr h)

theorem elementFields_signal (h : ¬ LimitFails (f.getLsbD 1) (num2 c d) 500 10000) :
    elementFields 3 [f, c, d] = .ok (.signal (f.getLsbD 1) (ownLimit (num2 c d))) :=
  if_pos (ownLimitOk_iff.mpr h)

/-- A role byte names no role when it is 0 or above 3. -/
theorem roleOfCode_none (h : r = 0 ∨ 3 < r) : Role.ofCode r.toNat = none := by
  have hr : r.toNat = 0 ∨ 3 < r.toNat := h.imp (fun h => by simp [h]) id
  rw [Role.ofCode, if_neg (by omega), if_neg (by omega), if_neg (by omega)]

/-- The role of any other role byte. -/
theorem roleOfCode_some (h : ¬ (r = 0 ∨ 3 < r)) :
    Role.ofCode r.toNat = some (if r = 1 then .exit else if r = 2 then .entry else .both) := by
  have hr : r = 1 ∨ r = 2 ∨ r = 3 := by bv_omega
  rcases hr with rfl | rfl | rfl <;> rfl

theorem elementFields_link (h : 3 < l) : elementFields 4 [l, x, y, r, c, d] = .error ⟨.link, 0, 0⟩ := if_pos h

theorem elementFields_role (hl : ¬ 3 < l) (h : r = 0 ∨ 3 < r) : elementFields 4 [l, x, y, r, c, d] = .error ⟨.role, 0, 0⟩ := by
  refine (if_neg hl).trans ?_
  rw [roleOfCode_none h]

theorem elementFields_remoteId (hl : ¬ 3 < l) (hr : ¬ (r = 0 ∨ 3 < r)) (h : 399 < num2 x y) :
    elementFields 4 [l, x, y, r, c, d] = .error ⟨.remoteId, 0, 0⟩ := by
  refine (if_neg hl).trans ?_
  rw [roleOfCode_some hr]
  exact if_neg (by simpa [elementId] using h)

theorem elementFields_boundary (hl : ¬ 3 < l) (hr : ¬ (r = 0 ∨ 3 < r)) (h : ¬ 399 < num2 x y) :
    elementFields 4 [l, x, y, r, c, d] =
      .ok (.boundary l.toNat (num2 x y) (if r = 1 then .exit else if r = 2 then .entry else .both) (num2 c d)) := by
  refine (if_neg hl).trans ?_
  rw [roleOfCode_some hr]
  exact if_pos (by simpa [elementId] using h)

end Fields

/-! ### The capacities, counted with the record in its place -/

/-- A boundary element of a link. -/
def ElementDef.isBoundaryOn (l : Nat) : ElementDef → Bool
  | .boundary m .. => m == l
  | _ => false

/-- Tests that agree on every definition count the same. -/
theorem countDefs_congr {f g : ElementDef → Bool} (h : ∀ d, f d = g d) (t : Table ElementDef) : countDefs t f = countDefs t g := by
  rw [funext h]

section Capacity
variable {t : Table ElementDef} {e : Nat} {p q : ElementDef → Bool}

theorem capacityOk_section {n : Nat} : capacityOk t e (.sect n) = true := rfl

theorem capacityOk_point {within group : Nat} {guarded individual : Bool} {own : Option Nat} (hp : ∀ d, p d = (d.kindCode == 2)) :
    capacityOk t e (.point within group guarded individual own) = true ↔
      ¬ 128 < countDefs (t.put e (.point within group guarded individual own)) p := by
  simp [capacityOk, countDefs_congr hp]

theorem capacityOk_signal {individual : Bool} {own : Option Nat} (hp : ∀ d, p d = (d.kindCode == 3)) :
    capacityOk t e (.signal individual own) = true ↔ ¬ 96 < countDefs (t.put e (.signal individual own)) p := by
  simp [capacityOk, countDefs_congr hp]

theorem capacityOk_boundary {l remote adjacent : Nat} {role : Role} (hp : ∀ d, p d = d.isBoundaryOn l)
    (hq : ∀ d, q d = (d.kindCode == 4)) :
    capacityOk t e (.boundary l remote role adjacent) = true ↔
      ¬ (8 < countDefs (t.put e (.boundary l remote role adjacent)) p ∨
        32 < countDefs (t.put e (.boundary l remote role adjacent)) q) := by
  rw [countDefs_congr hp, countDefs_congr hq, not_or, Nat.not_lt, Nat.not_lt]
  exact (Bool.and_eq_true_iff).trans (and_congr decide_eq_true_iff decide_eq_true_iff)

end Capacity

/-! ### The whole body -/

section Body
variable {t : Table ElementDef} {a b k : Byte} {rest : List Byte}

theorem readElement_short {body : List Byte} (h : body.length < 3) : readElement t body = .error ⟨.length, 0, 0⟩ := by
  unfold readElement
  split
  · simp only [List.length_cons] at h; omega
  · rfl

theorem readElement_id (h : 399 < num2 a b) : readElement t (a :: b :: k :: rest) = .error ⟨.elementId, 0, 0⟩ :=
  if_neg (by simpa [elementId] using h)

/-- With an id in range, the first of the fields that fails is the failure of the body. -/
theorem readElement_error {f : Failure} (hid : num2 a b ≤ 399) (h : elementFields k.toNat rest = .error f) :
    readElement t (a :: b :: k :: rest) = .error f := by
  simp [readElement, elementId, hid, h]

/-- With sound fields, a capacity that the record would pass is a failure of the kind. -/
theorem readElement_full {d : ElementDef} (hid : num2 a b ≤ 399) (h : elementFields k.toNat rest = .ok d)
    (hc : ¬ capacityOk t (num2 a b) d = true) : readElement t (a :: b :: k :: rest) = .error ⟨.kind, 0, 0⟩ := by
  simp [readElement, elementId, hid, h, hc]

theorem readElement_ok {d : ElementDef} (hid : num2 a b ≤ 399) (h : elementFields k.toNat rest = .ok d)
    (hc : capacityOk t (num2 a b) d = true) : readElement t (a :: b :: k :: rest) = .ok (num2 a b, d) := by
  simp [readElement, elementId, hid, h, hc]

end Body

/-! ### The command -/

section Command
variable {s : State} {rq : Request}

/-- R171: outside CONFIGURING an ELEMENT_DEF is refused with MODE. -/
theorem exec_elementDef_mode (hs : s.host.replies.length < 16) (hm : s.su.mode ≠ .configuring) :
    exec (.elementDef rq) s = handled 0x0A rq s .refused 1 [] := by
  simp only [exec, execElementDef, State.serve_next _ _ _ hs, if_neg hm]
  rfl

/-- R1: a body that fails a check is refused with BAD_FIELD, and the block is as it was. -/
theorem exec_elementDef_refuses (hs : s.host.replies.length < 16) (hm : s.su.mode = .configuring) (q : Field)
    (h : readElement s.cfg.elements rq.body = .error ⟨q, 0, 0⟩) :
    exec (.elementDef rq) s = handled 0x0A rq s .refused 5 [loByte q.code, 0, 0] := by
  simp only [exec, execElementDef, State.serve_next _ _ _ hs, if_pos hm, elementAnswer, h]
  rfl

/-- R1, R171: a body that passes is stored as its definition and as a record. -/
theorem exec_elementDef_stores (hs : s.host.replies.length < 16) (hm : s.su.mode = .configuring) {id : Nat} {d : ElementDef}
    (h : readElement s.cfg.elements rq.body = .ok (id, d)) :
    exec (.elementDef rq) s = handled 0x0A rq { s with cfg := { s.cfg with
      elements := s.cfg.elements.put id d
      stored := s.cfg.stored.filter (fun r => r.key != .element id) ++ [⟨.element id, rq.body⟩] } } .done 0 [] := by
  simp only [exec, execElementDef, State.serve_next _ _ _ hs, if_pos hm, elementAnswer, h]
  rfl

end Command

/-- Settles O19: the checks of each kind are taken in the order of R1, and each outcome is the command's on what the body reads as. -/
theorem elementRecords : Obligations.ElementRecords := by
  unfold Obligations.ElementRecords
  intro s rq hs
  refine ⟨exec_elementDef_mode hs, fun hm => ?_⟩
  dsimp only
  refine ⟨fun h => exec_elementDef_refuses hs hm .length (readElement_short h), fun a b k rest hb => ?_⟩
  have refuses (q : Field) (h : readElement s.cfg.elements (a :: b :: k :: rest) = .error ⟨q, 0, 0⟩) :=
    exec_elementDef_refuses hs hm q (hb ▸ h)
  have stores {d : ElementDef} (h : readElement s.cfg.elements (a :: b :: k :: rest) = .ok (num2 a b, d)) :=
    exec_elementDef_stores hs hm (hb ▸ h)
  have points (d : ElementDef) : (match d with | .point .. => true | _ => false) = (d.kindCode == 2) := by cases d <;> rfl
  have signals (d : ElementDef) : (match d with | .signal .. => true | _ => false) = (d.kindCode == 3) := by cases d <;> rfl
  have boundaries (d : ElementDef) : (match d with | .boundary .. => true | _ => false) = (d.kindCode == 4) := by cases d <;> rfl
  have boundariesOn (l : Nat) (d : ElementDef) : (match d with | .boundary m .. => m == l | _ => false) = d.isBoundaryOn l := by
    cases d <;> rfl
  refine ⟨fun h => refuses .elementId (readElement_id h), ?anyKind, ?anyLength, ?sectionBody, ?pointBody, ?signalBody,
    ?boundaryBody⟩
  case anyKind =>
    intro hid h
    have hk : k.toNat = 0 ∨ 4 < k.toNat := h.imp (fun h => by simp [h]) id
    exact refuses .kind (readElement_error hid (elementFields_kind hk rest))
  case anyLength =>
    intro hid h
    refine refuses .length (readElement_error hid (elementFields_length ?_))
    rcases h with ⟨rfl, h⟩ | ⟨rfl, h⟩ | ⟨rfl, h⟩ | ⟨rfl, h⟩ <;> simpa using h
  case sectionBody =>
    rintro x y hid rfl rfl
    split_ifs with h
    · exact stores (readElement_ok hid (elementFields_section h) capacityOk_section)
    · exact refuses .sectionLength (readElement_error hid (elementFields_sectionLength h))
  case pointBody =>
    rintro x y g f c d hid rfl rfl
    refine ite_prop_iff_and.mpr ⟨fun hg => ?group, fun hg => ite_prop_iff_and.mpr
      ⟨fun hl => ?limit, fun hl => ite_prop_iff_and.mpr ⟨fun hc => ?full, fun hc => ?sound⟩⟩⟩
    case group => exact refuses .powerGroup (readElement_error hid (elementFields_powerGroup hg))
    case limit => exact refuses .ownLimit (readElement_error hid (elementFields_pointLimit hg hl))
    case full =>
      exact refuses .kind (readElement_full hid (elementFields_point hg hl) ((capacityOk_point points).not_left.mpr hc))
    case sound => exact stores (readElement_ok hid (elementFields_point hg hl) ((capacityOk_point points).mpr hc))
  case signalBody =>
    rintro f c d hid rfl rfl
    refine ite_prop_iff_and.mpr ⟨fun hl => ?limit, fun hl => ite_prop_iff_and.mpr ⟨fun hc => ?full, fun hc => ?sound⟩⟩
    case limit => exact refuses .ownLimit (readElement_error hid (elementFields_signalLimit hl))
    case full =>
      exact refuses .kind (readElement_full hid (elementFields_signal hl) ((capacityOk_signal signals).not_left.mpr hc))
    case sound => exact stores (readElement_ok hid (elementFields_signal hl) ((capacityOk_signal signals).mpr hc))
  case boundaryBody =>
    rintro l x y r c d hid rfl rfl
    refine ite_prop_iff_and.mpr ⟨fun hl => ?link, fun hl => ite_prop_iff_and.mpr ⟨fun hr => ?role, fun hr => ite_prop_iff_and.mpr
      ⟨fun hi => ?remote, fun hi => ite_prop_iff_and.mpr ⟨fun hc => ?full, fun hc => ?sound⟩⟩⟩⟩
    case link => exact refuses .link (readElement_error hid (elementFields_link hl))
    case role => exact refuses .role (readElement_error hid (elementFields_role hl hr))
    case remote => exact refuses .remoteId (readElement_error hid (elementFields_remoteId hl hr hi))
    case full =>
      exact refuses .kind (readElement_full hid (elementFields_boundary hl hr hi)
        ((capacityOk_boundary (boundariesOn l.toNat) boundaries).not_left.mpr hc))
    case sound =>
      exact stores (readElement_ok hid (elementFields_boundary hl hr hi)
        ((capacityOk_boundary (boundariesOn l.toNat) boundaries).mpr hc))

end Sys2Proof.Machine
end

