-- ==== Sys2Proof/Proofs/ConfigurationStands.lean ====
section
/-! PROOFS. What leaves the configuration alone: the end of every event, host frames and auxiliary commands; and what each command may
change of it in service (R118, R171, R175). -/

namespace Sys2Proof.Machine

variable {s t : State}

/-! ### The end of an event, and a host frame -/

@[simp] theorem State.settle_cfg (s : State) : s.settle.cfg = s.cfg := ((Keeps.refl s).settle).steady.cfg

@[simp] theorem State.finish_cfg (s : State) : s.finish.cfg = s.cfg := by simp [State.finish]

@[simp] theorem State.replied_cfg (f : HostFrame) (r : Reply) (s : State) : (s.replied f r).cfg = s.cfg := by simp [State.replied]

/-- A request leaves of the configuration what its owner leaves of it. -/
theorem State.serve_cfg (f : HostFrame) (owner : State → Answer) (s : State) :
    (s.serve f owner).cfg = s.cfg ∨ (s.serve f owner).cfg = (owner s).state.cfg := by
  unfold State.serve
  split
  · exact .inr (State.replied_cfg ..)
  · exact .inl rfl

/-- The configuration stands through a request whose owner keeps it. -/
theorem State.serve_cfg_eq {f : HostFrame} {owner : State → Answer} (h : (owner s).state.cfg = s.cfg) :
    (s.serve f owner).cfg = s.cfg := (s.serve_cfg f owner).elim id (·.trans h)

theorem inService_cfg {owner : State → Answer} (h : (owner s).state.cfg = s.cfg) : (inService s owner).state.cfg = s.cfg := by
  unfold inService
  split
  · exact h
  · rfl

theorem Ends.cfg (h : Ends s t) : t.cfg = s.cfg := by
  cases h with
  | stays h => rw [h]
  | plain h _ => exact h.steady.cfg
  | event u h ht => rw [ht, State.finish_cfg, h.cfg]
  | reply u f r _ h ht => rw [ht, State.replied_cfg, h.cfg]

@[simp] theorem State.enqueue_cfg (f : HostFrame) (s : State) : (s.enqueue f).cfg = s.cfg := by
  unfold State.enqueue
  split
  · rfl
  · dsimp only; split <;> rfl

@[simp] theorem State.goodFrame_cfg (f : HostFrame) (s : State) : (s.goodFrame f).cfg = s.cfg := by
  rw [State.goodFrame, State.enqueue_cfg, ((Steady.refl _).goodHostFrame).cfg]

/-! ### Auxiliary commands -/

/-- R164, R177: a warm restart keeps the configuration. -/
theorem State.warmRestart_cfg (s : State) : s.warmRestart.cfg = s.cfg := by
  have h : (({ s.setUp with host := s.host.restart, reports := [] } : State).mark .device).cfg = s.cfg := State.mark_cfg _ _
  unfold State.warmRestart State.completeIfEmpty
  split
  · exact ((Calm.refl _).setMode).cfg.trans h
  · exact h

/-- R163: a resumption keeps the configuration. -/
theorem execResumption_cfg (s : State) : (execResumption s).state.cfg = s.cfg := by
  unfold execResumption
  split
  · exact ((Calm.refl s).resumeTo).cfg
  · rfl

/-- R161: so does every auxiliary command. -/
theorem executeAux_cfg (k : AuxKind) (n : Nat) (s : State) : (executeAux k n s).state.cfg = s.cfg := by
  cases k with
  | resume => exact execResumption_cfg s
  | restart => exact s.warmRestart_cfg
  | _ => exact ((Steady.refl s).executeAux (by simp) (by simp)).cfg

theorem confirm_cfg (a : Authority) (k : Option AuxKind) (n : Nat) (s : State) : (confirm a k n s).state.cfg = s.cfg := by
  have kept : (s.putPreparation none).cfg = s.cfg := ((Steady.refl s).putPreparation).cfg
  unfold confirm
  repeat' split
  · rfl
  · exact (executeAux_cfg ..).trans kept
  · exact kept
  · exact kept

theorem confirmAnswer_cfg (rq : Request) (s : State) : (confirmAnswer rq s).state.cfg = s.cfg := by
  unfold confirmAnswer
  split
  · rfl
  · exact confirm_cfg ..

/-! ### The requests of the configuration, in service -/

theorem State.setParams_cfg (p : Params) (s : State) : (s.setParams p).cfg = { s.cfg with params := p } := by
  unfold State.setParams
  dsimp only
  split
  · exact ((Calm.refl _).setMode).cfg.trans (State.mark_cfg _ _)
  · exact State.mark_cfg _ _

/-- R175: a GLOBAL_PARAMS changes the parameters in force and nothing else of the configuration. -/
theorem changeParams_cfg (a : Authority) (body : List Byte) (s : State) :
    ∃ p, (changeParams a body s).state.cfg = { s.cfg with params := p } := by
  unfold changeParams
  repeat' split
  · exact ⟨_, rfl⟩
  · exact ⟨_, rfl⟩
  · exact ⟨_, State.setParams_cfg _ s⟩
  · exact ⟨_, rfl⟩

theorem paramsAnswer_inService (rq : Request) (hm : s.su.mode.inService = true) :
    paramsAnswer rq s = changeParams rq.authority rq.body s := by
  unfold paramsAnswer
  split
  case h_1 h => rw [h] at hm; cases hm
  case h_2 h => rw [h] at hm; cases hm
  case h_3 => rfl

/-- R171: a request that is taken only in a mode out of service is refused in service. -/
theorem refused_in_service {m : Mode} (hm : s.su.mode.inService = true) (hc : m.inService = false) (a : Answer) :
    (if s.su.mode = m then a else refuse s .mode) = refuse s .mode :=
  if_neg fun h => by simp [h, hc] at hm

/-! ### Every command -/

/-- In service every command keeps the configuration, but for a cold reset, and for a GLOBAL_PARAMS, which changes its parameters. -/
theorem exec_cfg_inService {c : Instr} (h : exec c s = .next t) (hm : s.su.mode.inService = true) :
    t.cfg = s.cfg ∨ c = .coldReset ∨ ∃ rq p, c = .globalParams rq ∧ t.cfg = { s.cfg with params := p } := by
  refine if ho : c.ordinary = true then .inl (exec_ends ho h).cfg else ?_
  cases c <;> simp only [Instr.ordinary, not_true_eq_false] at ho <;> cases h
  case coldReset => exact .inr (.inl rfl)
  case globalParams rq =>
    obtain ⟨p, hp⟩ := changeParams_cfg rq.authority rq.body s
    rcases s.serve_cfg (requestFrame 0x0E rq) (paramsAnswer rq) with k | k
    · exact .inl k
    · exact .inr (.inr ⟨rq, p, rfl, by rw [← hp, ← paramsAnswer_inService rq hm]; exact k⟩)
  all_goals refine .inl ?_
  case hostFrameReceived bytes =>
    split
    · rw [State.finish_cfg, State.goodFrame_cfg]
    · rfl
    · rfl
  case badFrame => rfl
  case transmitLineFree => exact State.serveLine_cfg _
  case configBegin | elementDef | routeDef | linkDef | groupDef | configEnd =>
    exact State.serve_cfg_eq (congrArg (fun a => a.state.cfg) (refused_in_service hm rfl _))
  case resume | restart => exact State.serve_cfg_eq (inService_cfg (confirm_cfg ..))
  case confirmAux rq => exact State.serve_cfg_eq (inService_cfg (confirmAnswer_cfg rq s))

end Sys2Proof.Machine
end

