-- ==== Sys2Proof/Proofs/LinkRecords.lean ====
section
/-! PROOFS. LINK_DEF (R118): the first failing check of a link's parameters, what the reader of the whole body makes of it, how the
command ends on a body that fails and on one that passes; that the links' parameters stand in service; and the statement about both. -/

namespace Sys2Proof.Machine

/-! ### The checks, in order -/

theorem firstFailure_check (ok : Bool) (f : Failure) (rest : List (Option Failure)) :
    firstFailure (check ok f :: rest) = if ok = false then some f else firstFailure rest := by
  cases ok <;> rfl

/-- R118: the first failing check of a link's effective parameters, by the values that fail each. -/
theorem checkLink_eq (l q : Byte) (p : LinkParams) :
    checkLink l.toNat q.toNat p =
      if 3 < l then some ⟨.link, 0, 0⟩
      else if p.period < 100 ∨ 1000 < p.period then some ⟨.period, 0, 0⟩
      else if p.los < 2 * p.period ∨ 10000 < p.los then some ⟨.los, 0, 0⟩
      else if p.inLock < 3 ∨ 32 < p.inLock then some ⟨.inLock, 0, 0⟩
      else if p.outLock < 2 ∨ 16 < p.outLock then some ⟨.outLock, 0, 0⟩
      else if p.answer < 1000 ∨ 60000 < p.answer then some ⟨.answer, 0, 0⟩
      else if q ≠ 1 ∧ q ≠ 2 then some ⟨.senior, 0, 0⟩
      else none := by
  have hl : ¬ l.toNat ≤ 3 ↔ 3 < l := Nat.not_le
  have outside (least n greatest : Nat) : ¬ (least ≤ n ∧ n ≤ greatest) ↔ n < least ∨ greatest < n := by omega
  have hq : ¬ (q.toNat = 1 ∨ q.toNat = 2) ↔ q ≠ 1 ∧ q ≠ 2 := by bv_omega
  simp only [checkLink, firstFailure_check, decide_eq_false_iff_not, hl, outside, hq, firstFailure]

/-- R118: a byte given as 0 takes its default. -/
theorem orDefault_byte (x : Byte) (d : Nat) : orDefault x.toNat d = if x = 0 then d else x.toNat :=
  if_congr (by bv_omega) rfl rfl

/-! ### The whole body -/

theorem readLinkDef_length {body : List Byte} (h : body.length ≠ 10) : readLinkDef body = .error ⟨.length, 0, 0⟩ := by
  unfold readLinkDef
  split
  · exact absurd rfl h
  · rfl

/-- R118: the effective parameters of a body of ten bytes. -/
def effectiveLink (a b c d i o e f q : Byte) : LinkParams :=
  ⟨if num2 a b = 0 then 250 else num2 a b, if num2 c d = 0 then 1000 else num2 c d, if i = 0 then 8 else i.toNat,
    if o = 0 then 3 else o.toNat, if num2 e f = 0 then 10000 else num2 e f, q == 1⟩

section Fields
variable {l a b c d i o e f q : Byte}

theorem effectiveLink_eq : effectiveLink a b c d i o e f q = ⟨orDefault (num2 a b) 250, orDefault (num2 c d) 1000,
    orDefault i.toNat 8, orDefault o.toNat 3, orDefault (num2 e f) 10000, q.toNat == 1⟩ := by
  have hq : (q == 1) = (q.toNat == 1) := by rw [Bool.eq_iff_iff, beq_iff_eq, beq_iff_eq]; bv_omega
  rw [orDefault_byte, orDefault_byte, effectiveLink, hq]
  rfl

/-- The first of the checks that fails is the failure of the body. -/
theorem readLinkDef_error {x : Failure} (h : checkLink l.toNat q.toNat (effectiveLink a b c d i o e f q) = some x) :
    readLinkDef [l, a, b, c, d, i, o, e, f, q] = .error x := by
  rw [effectiveLink_eq] at h
  simp only [readLinkDef, h]

theorem readLinkDef_ok (h : checkLink l.toNat q.toNat (effectiveLink a b c d i o e f q) = none) :
    readLinkDef [l, a, b, c, d, i, o, e, f, q] = .ok (l.toNat, effectiveLink a b c d i o e f q) := by
  rw [effectiveLink_eq] at h ⊢
  simp only [readLinkDef, h]

end Fields

/-! ### The command -/

section Command
variable {s : State} {rq : Request}

/-- R171: outside CONFIGURING a LINK_DEF is refused with MODE. -/
theorem exec_linkDef_mode (hs : s.host.replies.length < 16) (hm : s.su.mode ≠ .configuring) :
    exec (.linkDef rq) s = handled 0x0C rq s .refused 1 [] := by
  simp only [exec, execLinkDef, State.serve_next _ _ _ hs, if_neg hm]
  rfl

/-- R118: a body that fails a check is refused with BAD_FIELD, and the block is as it was. -/
theorem exec_linkDef_refuses (hs : s.host.replies.length < 16) (hm : s.su.mode = .configuring) (x : Field)
    (h : readLinkDef rq.body = .error ⟨x, 0, 0⟩) :
    exec (.linkDef rq) s = handled 0x0C rq s .refused 5 [loByte x.code, 0, 0] := by
  simp only [exec, execLinkDef, State.serve_next _ _ _ hs, if_pos hm, linkAnswer, h]
  rfl

/-- R118, R171: a body that passes is stored as its parameters and as a record. -/
theorem exec_linkDef_stores (hs : s.host.replies.length < 16) (hm : s.su.mode = .configuring) {l : Nat} {p : LinkParams}
    (h : readLinkDef rq.body = .ok (l, p)) :
    exec (.linkDef rq) s = handled 0x0C rq { s with cfg := { s.cfg with
      links := s.cfg.links.put l p
      stored := s.cfg.stored.filter (fun r => r.key != .link l) ++ [⟨.link l, rq.body⟩] } } .done 0 [] := by
  simp only [exec, execLinkDef, State.serve_next _ _ _ hs, if_pos hm, linkAnswer, h]
  rfl

end Command

/-- R118: in service every command but a cold reset leaves every link's parameters as they are. -/
theorem exec_cfg_links {s t : State} {c : Instr} (h : exec c s = .next t) (hm : s.su.mode.inService = true) :
    t.cfg.links = s.cfg.links ∨ c = .coldReset := by
  rcases exec_cfg_inService h hm with k | k | ⟨_, _, -, k⟩
  · exact .inl (congrArg Configuration.links k)
  · exact .inr k
  · exact .inl (by rw [k])

/-- Settles O22: the checks are taken in the order of R118, each outcome is the command's on what the body reads as, and in service the
links' parameters stand. -/
theorem linkRecords : Obligations.LinkRecords := by
  unfold Obligations.LinkRecords
  refine ⟨fun s rq hs => ⟨exec_linkDef_mode hs, fun hm => ?_⟩, fun c s t h hm => ?inService⟩
  case inService => exact exec_cfg_links h hm
  have refuses := exec_linkDef_refuses (rq := rq) hs hm
  refine ⟨fun h => refuses .length (readLinkDef_length h), ?_⟩
  intro l a b c d i o e f q hb period los inLock outLock answer
  have fails (x : Field) (h : checkLink l.toNat q.toNat (effectiveLink a b c d i o e f q) = some ⟨x, 0, 0⟩) :=
    refuses x (hb ▸ readLinkDef_error h)
  have checked : checkLink l.toNat q.toNat (effectiveLink a b c d i o e f q) = _ :=
    checkLink_eq l q ⟨period, los, inLock, outLock, answer, q == 1⟩
  split_ifs at checked ⊢
  · exact fails .link checked
  · exact fails .period checked
  · exact fails .los checked
  · exact fails .inLock checked
  · exact fails .outLock checked
  · exact fails .answer checked
  · exact fails .senior checked
  · exact exec_linkDef_stores hs hm (hb ▸ readLinkDef_ok checked)

end Sys2Proof.Machine
end

