-- ==== Sys2Proof/Proofs/ProbePatterns.lean ====
section
/-! PROOFS. The probe generator and its patterns (R124): one step bit by bit, the bits of a pattern as the bits shifted out, the start of
each probe's pattern, and what a port places. -/

namespace Sys2Proof.Machine

/-! ### The generator -/

/-- The word a feedback bit enters the register by has that bit in position 15 and no other. -/
theorem feedback_getLsbD (f : Bool) (i : Nat) :
    (if f then (0x8000 : BitVec 16) else 0).getLsbD i = (f && decide (i = 15)) := by
  cases f
  · simp
  · have h : (0x8000 : BitVec 16) = BitVec.twoPow 16 15 := rfl
    rw [if_pos rfl, h, BitVec.getLsbD_twoPow]
    simp only [Nat.reduceLT, decide_true, Bool.true_and, eq_comm]

theorem probeStep_getLsbD (r : BitVec 16) (i : Nat) :
    (probeStep r).getLsbD i =
      (r.getLsbD (1 + i) || (((r.getLsbD 0 ^^ r.getLsbD 2) ^^ (r.getLsbD 3 ^^ r.getLsbD 5)) && decide (i = 15))) := by
  rw [probeStep, BitVec.getLsbD_or, BitVec.getLsbD_ushiftRight, feedback_getLsbD]

theorem probeSteps_add (m n : Nat) (r : BitVec 16) : probeSteps (m + n) r = probeSteps n (probeSteps m r) := by
  induction m generalizing r with
  | zero => rw [Nat.zero_add, probeSteps]
  | succ m ih => rw [Nat.succ_add, probeSteps, ih, probeSteps]

/-! ### The bytes of a pattern -/

/-- The bits gathered before stand above the `n` that follow. -/
theorem probeBits_testBit_above (n j : Nat) (r : BitVec 16) (acc : Nat) :
    (probeBits n r acc).testBit (n + j) = acc.testBit j := by
  induction n generalizing j r acc with
  | zero => rw [probeBits, Nat.zero_add]
  | succ n ih =>
    rw [probeBits, Nat.succ_add_eq_add_succ, ih, Nat.testBit_succ]
    congr 1
    have := (r.getLsbD 0).toNat_lt
    omega

/-- Of `n` bits gathered, the one shifted out after `i` steps stands `i` places below the first. -/
theorem probeBits_testBit {n i : Nat} (h : i < n) (r : BitVec 16) (acc : Nat) :
    (probeBits n r acc).testBit (n - 1 - i) = (probeSteps i r).getLsbD 0 := by
  induction n generalizing i r acc with
  | zero => omega
  | succ n ih =>
    cases i with
    | zero =>
      have top := probeBits_testBit_above n 0 (probeStep r) (acc * 2 + (r.getLsbD 0).toNat)
      rw [Nat.add_zero] at top
      rw [probeBits, probeSteps, Nat.add_sub_cancel, Nat.sub_zero, top]
      cases r.getLsbD 0 <;> simp [Nat.testBit_zero]
    | succ i =>
      rw [probeBits, probeSteps, show n + 1 - 1 - (i + 1) = n - 1 - i by omega]
      exact ih (by omega) _ _

theorem probeBytes_length (n : Nat) (r : BitVec 16) : (probeBytes n r).length = n := by
  induction n generalizing r with
  | zero => rfl
  | succ n ih => rw [probeBytes, List.length_cons, ih]

/-- Byte `m` is made of the eight bits that follow `8 m` steps. -/
theorem probeBytes_getD {m n : Nat} (h : m < n) (r : BitVec 16) (d : Byte) :
    (probeBytes n r).getD m d = BitVec.ofNat 8 (probeBits 8 (probeSteps (8 * m) r) 0) := by
  induction n generalizing m r with
  | zero => omega
  | succ n ih =>
    cases m with
    | zero => rfl
    | succ m =>
      rw [probeBytes, List.getD_cons_succ, ih (by omega), ← probeSteps_add, Nat.mul_succ, Nat.add_comm 8]

/-- R124: the first of a byte's bits to be shifted out is its most significant. -/
theorem probePattern_getLsbD (r : BitVec 16) {m i : Nat} (hm : m < 16) (hi : i < 8) :
    ((probePattern r).getD m 0).getLsbD (7 - i) = (probeSteps (8 * m + i) r).getLsbD 0 := by
  have hb : 7 - i < 8 := by omega
  rw [probePattern, probeBytes_getD hm, BitVec.getLsbD_ofNat, decide_eq_true hb, Bool.true_and, probeSteps_add]
  exact probeBits_testBit hi _ 0

/-! ### The start of each pattern -/

/-- Each pattern ends where the next begins: 16 bytes are 128 steps. -/
theorem probeStart_succ (n : Nat) : probeStart (n + 1) = probeSteps 128 (probeStart n) := by
  rw [probeStart, probeStart, Nat.mul_succ, probeSteps_add]

/-! ### What a port places -/

section Port
variable {k : Link}

/-- A telegram placed on an idle line begins to leave at once (R120). -/
theorem Link.append_sending (t : Telegram) (hs : k.sending = none) (hq : k.queue = []) :
    (k.append t).sending = some (k.txSeq, t) := by
  simp [Link.append, Link.beginSending, hs, hq]

theorem Link.appendProbe_sending (hs : k.sending = none) (hq : k.queue = []) :
    k.appendProbe.sending = some (k.txSeq, .probe k.outProbe (probePattern k.generator)) :=
  k.append_sending _ hs hq

/-- A generator at the start of the outgoing probe's pattern is at the start of the next one's after it, also where the number returns
to 0 (R124). -/
theorem Link.appendProbe_generator (h : k.generator = probeStart k.outProbe.toNat) :
    k.appendProbe.generator = probeStart (k.outProbe + 1).toNat := by
  have hk : k.appendProbe.generator = if k.outProbe = 255 then probeLoad else probeSteps 128 k.generator := rfl
  rw [hk]
  split_ifs with hn
  · rw [hn]; rfl
  · have next : (k.outProbe + 1).toNat = k.outProbe.toNat + 1 := by bv_omega
    rw [next, probeStart_succ, h]

/-- A link that enters PROVING places probe 0 and is at the start of probe 1's pattern (R128, step 5). -/
theorem Link.proving_generator (now : Time) (p : LinkParams) : (k.proving now p).generator = probeStart 1 :=
  calc (k.proving now p).generator
    _ = probeSteps 128 (probeStart 0) := rfl
    _ = probeStart 1 := (probeStart_succ 0).symm

end Port

/-- Settles O52: the generator bit by bit, then the patterns, their starts, and what a port places. -/
theorem probePatterns : Obligations.ProbePatterns := by
  unfold Obligations.ProbePatterns
  refine ⟨fun r => ⟨fun i hi => ?shifted, ?feedback⟩, fun r => ⟨probeBytes_length 16 r, fun m hm i hi => probePattern_getLsbD r hm hi⟩,
    fun n => ⟨rfl, rfl⟩, fun now p k hs hq => ?proving, fun k h => ⟨rfl, k.appendProbe_generator h, fun hs hq => ?placed⟩, ?load⟩
  case shifted =>
    rw [probeStep_getLsbD, decide_eq_false (by omega), Bool.and_false, Bool.or_false, Nat.add_comm]
  case feedback =>
    have above : r.getLsbD 16 = false := r.getLsbD_of_ge 16 (le_refl 16)
    rw [probeStep_getLsbD, above, Bool.false_or, decide_eq_true rfl, Bool.and_true]
  case proving => exact ⟨Link.appendProbe_sending hs hq, rfl, k.proving_generator now p⟩
  case placed => rw [← h]; exact Link.appendProbe_sending hs hq
  case load => decide

end Sys2Proof.Machine
end
